-- ==== Sys2Proof/Word.lean ====
section
/-! DEFINITION. The value types of CORE: bytes, buffers, the seed, the mask key, a parsed header, the builder's phases. -/

namespace Sys2Proof

/-- A byte: an 8-bit unsigned value, bit 7 the most significant (R9). -/
abbrev Byte := BitVec 8

/-- A buffer: a finite sequence of bytes at zero-based offsets; its length is the `len` of R10. -/
abbrev Buffer := List Byte

/-- The width of the mask-key generator's seed (R7, R21). -/
abbrev Seed := BitVec 32

/-- A mask key: exactly 4 raw bytes in buffer order, never assembled into a number (R42, R67). -/
structure MaskKey where
  b0 : Byte
  b1 : Byte
  b2 : Byte
  b3 : Byte
deriving DecidableEq, Repr, Inhabited

/-- The four outputs of HDR1, in the order of the document's tuple up to field names (R31, R101).
They are present or absent together (R25). -/
structure Header where
  fin : Bool
  opcode : BitVec 4
  payloadLenCode : BitVec 7
  mask : Bool
deriving DecidableEq, Repr, Inhabited

/-- The phase that selects the source of BUILD's output multiplexer (R33, R149). -/
inductive Phase where
  | hdr
  | len
  | key
  | pay
deriving DecidableEq, Repr, Inhabited

end Sys2Proof
end

