-- ==== Sys2Proof/Config.lean ====
section
/-! DEFINITION. What an implementation fixes and the spec leaves open (R8), and the values of registers the spec leaves undefined. -/

namespace Sys2Proof

/-- The parameters of CORE that a result depends on (R8). LEN_W is taken as unbounded (natural numbers, as R8
allows; log entry 10) and XMASK_CHUNK_BYTES is not represented (R34, R137; log entry 16). -/
structure Config where
  /-- SEED_XOR_CONST, the constant of the seed update (R150, D13). -/
  seedXorConst : Seed
  /-- SEED_RESET, the seed after reset (R201, D14). -/
  seedReset : Seed
  /-- KEY_OF_SEED, the 4 key bytes taken from the updated seed (R151, D15). -/
  keyOfSeed : Seed → MaskKey
  /-- XMASK_IN_PLACE: whether XMASK overwrites its payload buffer (D8, U1). -/
  xmaskInPlace : Bool
deriving Inhabited

/-- The default KEY_OF_SEED of R151: key byte j is bits 8j+7 down to 8j of the updated seed. Used by the
reference configuration alone. -/
def Config.keyOfSeedDefault (s : Seed) : MaskKey :=
  ⟨s.extractLsb' 0 8, s.extractLsb' 8 8, s.extractLsb' 16 8, s.extractLsb' 24 8⟩

/-- REFCFG, the reference configuration of R8, for the test vectors only; nothing in the machine uses it. -/
def Config.reference : Config :=
  { seedXorConst := 0xA5A5A5A5#32, seedReset := 0x00000001#32,
    keyOfSeed := Config.keyOfSeedDefault, xmaskInPlace := false }

/-- The configuration of the machine. DESIGN CHOICE (log entry 3): an opaque constant, because no source gives
any of its values; no proof can see one. -/
opaque config : Config

/-! Undefined values (log entry 5). R26, R32, R33 and R36 leave every transient register undefined between
transactions, and a transaction leaves undefined what it does not write. Each such register then holds one of
these, applied to the counter `draws` of the state; none has a body, so nothing can be proved about it. -/

/-- CMD once its transaction has returned, and between transactions (R26). -/
opaque Config.undefinedCmd : Nat → Byte
/-- B0 once its transaction has returned, and between transactions (R26). -/
opaque Config.undefinedB0 : Nat → Byte
/-- A between transactions (R26). -/
opaque Config.undefinedA : Nat → Buffer
/-- K between transactions (R26). -/
opaque Config.undefinedK : Nat → Buffer
/-- The status between transactions (R26). -/
opaque Config.undefinedStatus : Nat → BitVec 2

/-- O after a transaction that has no output buffer (R30), and between transactions (R26). -/
opaque Config.undefinedO : Nat → Buffer
/-- The HDR1 fields of the record after a transaction that does not write them. -/
opaque Config.undefinedHdr : Nat → Option Header
/-- The length field of the record after a transaction that does not write it. -/
opaque Config.undefinedExtLen : Nat → Option (BitVec 31)
/-- The key field of the record after a transaction that does not write it. -/
opaque Config.undefinedKey : Nat → Option MaskKey
/-- `pay_valid` after a transaction that does not write it. -/
opaque Config.undefinedPayValid : Nat → Bool
/-- `err_args` after a transaction that does not write it. -/
opaque Config.undefinedErrArgs : Nat → Bool
/-- The key index after any transaction: it does not survive one (R32). -/
opaque Config.undefinedKp : Nat → BitVec 2
/-- The builder phase after any transaction: it does not survive one (R33). -/
opaque Config.undefinedPh : Nat → Phase

end Sys2Proof
end

