-- ==== Sys2Proof/Machine/State.lean ====
section
/-! DEFINITION. The state of CORE, the requests a caller issues, the state after reset, and the reasons the model stops. -/

namespace Sys2Proof.Machine

/-- One command with its operands, as the caller hands them over (R26 to R29). An argument whose present bit
is 0 in `cmd` is not read, whatever stands here (R142). -/
structure Command where
  cmd : Byte
  b0 : Byte
  a : Buffer
  k : Buffer
deriving DecidableEq, Repr

/-- What the caller can ask of CORE: one transaction, or a reset between transactions (R200, R202). -/
inductive Request where
  | command (c : Command)
  | reset
deriving DecidableEq, Repr

/-- Every piece of state the spec gives CORE. Only `seed` survives a transaction by the spec's rules (R20, R26);
the others are defined from the moment a transaction takes its command until its result has been returned, and
undefined between transactions. The state that a command's step answers is the moment of return: O, the record
and the buffers hold what the rules say they hold then (log entry 22). -/
structure State where
  /-- SEED (R20, R21). -/
  seed : Seed
  /-- CMD (R27). -/
  cmd : Byte
  /-- B0 (R28). -/
  b0 : Byte
  /-- Input buffer A; a_len is its length (R29). -/
  a : Buffer
  /-- Input buffer K; k_len is its length (R29). -/
  k : Buffer
  /-- Output buffer O; o_len is its length (R30). -/
  o : Buffer
  /-- The 2-bit status of the result record (R31). -/
  status : BitVec 2
  /-- hdr_valid with fin, opcode, payload_len_code, mask (R31). -/
  hdr : Option Header
  /-- len_valid with ext_len (R31). -/
  extLen : Option (BitVec 31)
  /-- key_valid with key (R31). -/
  key : Option MaskKey
  /-- pay_valid (R31). -/
  payValid : Bool
  /-- err_args (R31). -/
  errArgs : Bool
  /-- The masker's key index (R32). -/
  kp : BitVec 2
  /-- The builder's phase (R33). -/
  ph : Phase
  /-- MODEL'S OWN: the requests the caller has issued and CORE has not taken, oldest first (R50, R52; log entry 2). -/
  pending : List Request
  /-- MODEL'S OWN: the command whose result stands in O and the record, from its return on; `none` between
  transactions, when every transient register is undefined (R26; log entry 22). -/
  served : Option Command
  /-- MODEL'S OWN: the counter behind the undefined values (log entry 5). -/
  draws : Nat
deriving DecidableEq, Repr

/-- CORE right after reset (R36, R200): SEED holds SEED_RESET. The transient registers have no reset value in
the spec; theirs are DESIGN CHOICE (log entry 4). Status 01 is what R31 gives for CMD 0x00 with hdr_valid 0. -/
def State.reset : State where
  seed := config.seedReset
  cmd := 0#8
  b0 := 0#8
  a := []
  k := []
  o := []
  status := 0b01#2
  hdr := none
  extLen := none
  key := none
  payValid := false
  errArgs := false
  kp := 0#2
  ph := .hdr
  pending := []
  served := none
  draws := 0

/-- CORE has no fault: every failure is a value returned to the caller (R180, R191), so this type is empty.
Safe. -/
inductive Fault where
deriving DecidableEq, Repr

/-- Why the model gives a command no meaning. -/
inductive Refusal where
  /-- Raised by an arm of exec whose instruction has no meaning yet; no arm is such. Safe. -/
  | notModelled (mnemonic : String)
  /-- Raised by the step for a command word with CMD[7:6] not 0 (R80, D25). Safe. -/
  | reservedBits
  /-- Raised by the step for a command word with CMD[5:2] not 0 and op not BUILD's (R80, D25). Safe. -/
  | buildBitsOutsideBuild
  /-- Raised by the two WIRE rows, which are layouts of header bytes and no commands (R77; log entry 8).
  Safe; the step never gets there. -/
  | notACommand
  /-- Raised by a form row run on an A whose length does not select that form (R77; log entry 9).
  Safe; the step never gets there. -/
  | formNotSelected
deriving DecidableEq, Repr

end Sys2Proof.Machine
end

