-- ==== Sys2Proof/Machine/Flags.lean ====
section
/-! DEFINITION. The status codes of the result record and how each operation computes its status from its flags (R25, R31). -/

namespace Sys2Proof.Machine

/-- OK (R31). -/
def statusOk : BitVec 2 := 0b00#2
/-- ABSENT: every output of the operation is absent (R31, R181). -/
def statusAbsent : BitVec 2 := 0b01#2
/-- INVALID_ARGS, BUILD only (R31, R182). -/
def statusInvalidArgs : BitVec 2 := 0b10#2

/-- HDR1's status: ABSENT exactly when hdr_valid is 0 (R31). -/
def hdr1Status (hdr : Option Header) : BitVec 2 := if hdr.isSome then statusOk else statusAbsent

/-- HDR2's status: ABSENT exactly when len_valid and key_valid are both 0 (R31, D30). -/
def hdr2Status (extLen : Option (BitVec 31)) (key : Option MaskKey) : BitVec 2 :=
  if extLen.isSome || key.isSome then statusOk else statusAbsent

/-- XMASK's status: ABSENT exactly when pay_valid is 0 (R31). -/
def xmaskStatus (payValid : Bool) : BitVec 2 := if payValid then statusOk else statusAbsent

/-- BUILD's status: INVALID_ARGS exactly when err_args is 1 (R31). -/
def buildStatus (errArgs : Bool) : BitVec 2 := if errArgs then statusInvalidArgs else statusOk

end Sys2Proof.Machine
end

