-- ==== Sys2Proof/Syntax.lean ====
section
/-! DEFINITION. The instructions: one constructor per row of spec/opcode_table.json, and the ways a command word can spell none. -/

namespace Sys2Proof

/-- The rows of the opcode table (R76, R77), in the table's order. A Bool argument is the command bit of the
letter its row shows: `k` is p_mk, `b` is p_b0, `p` is p_pl, `m` is mk (R27). -/
inductive Instr where
  /-- HDR1, `00000000`. -/
  | hdr1
  /-- HDR2, `00000001`, the whole operation. -/
  | hdr2
  /-- HDR2.L16, `00000001` with a_len = 2. -/
  | hdr2L16
  /-- HDR2.K, `00000001` with a_len = 4. -/
  | hdr2K
  /-- HDR2.L16K, `00000001` with a_len = 6. -/
  | hdr2L16K
  /-- HDR2.L31, `00000001` with a_len = 8. -/
  | hdr2L31
  /-- HDR2.L31K, `00000001` with a_len = 12. -/
  | hdr2L31K
  /-- HDR2.BAD, `00000001` with any other a_len. -/
  | hdr2Bad
  /-- XMASK, `00000010`. -/
  | xmask
  /-- BUILD, `00kbpm11`, the whole operation. -/
  | build (k b p m : Bool)
  /-- BUILD.S, `00111m11` with a_len at most 125. -/
  | buildS (m : Bool)
  /-- BUILD.M, `00111m11` with a_len from 126 to 65534. -/
  | buildM (m : Bool)
  /-- BUILD.L, `00111m11` with a_len at least 65535. -/
  | buildL (m : Bool)
  /-- BUILD.ERR, its row `000bpm11`: the mask-flag argument is missing. -/
  | buildErrMk (b p m : Bool)
  /-- BUILD.ERR, its row `00k0pm11`: the opcode-byte argument is missing. -/
  | buildErrB0 (k p m : Bool)
  /-- BUILD.ERR, its row `00kb0m11`: the payload argument is missing. -/
  | buildErrPl (k b m : Bool)
  /-- WIRE.BYTE0, `frrroooo`: the layout of header byte 0 (R61); not a command. -/
  | wireByte0 (f : Bool) (r : BitVec 3) (o : BitVec 4)
  /-- WIRE.BYTE1, `mlllllll`: the layout of header byte 1 (R62); not a command. -/
  | wireByte1 (m : Bool) (l : BitVec 7)
deriving DecidableEq, Repr

/-- The two ways a command word spells no operation (R80). -/
inductive DecodeError where
  /-- CMD[7:6] is not 0. -/
  | reservedBits
  /-- CMD[5:2] is not 0 although op is not BUILD's. -/
  | buildBitsOutsideBuild
deriving DecidableEq, Repr

end Sys2Proof
end

