-- ==== Sys2Proof/WellFormed.lean ====
section
/-! DEFINITION. Which terms of Instr are well formed, and which kind of row each is. -/

namespace Sys2Proof

/-- The `kind` column of the opcode table (R77). -/
inductive RowKind where
  | operation
  | form
  | wire
deriving DecidableEq, Repr

/-- The kind of an instruction's row (R77). -/
def Instr.kind : Instr → RowKind
  | .hdr1 => .operation
  | .hdr2 => .operation
  | .hdr2L16 => .form
  | .hdr2K => .form
  | .hdr2L16K => .form
  | .hdr2L31 => .form
  | .hdr2L31K => .form
  | .hdr2Bad => .form
  | .xmask => .operation
  | .build _ _ _ _ => .operation
  | .buildS _ => .form
  | .buildM _ => .form
  | .buildL _ => .form
  | .buildErrMk _ _ _ => .form
  | .buildErrB0 _ _ _ => .form
  | .buildErrPl _ _ _ => .form
  | .wireByte0 _ _ _ => .wire
  | .wireByte1 _ _ => .wire

/-- Rows that no form row refines: what a decoder that tests CMD and then a_len ends at. -/
def Instr.isFinal : Instr → Bool
  | .hdr2 => false
  | .build _ _ _ _ => false
  | i => i.kind != .wire

/-- Well-formedness. Field widths are fixed by the types, so the only checks are those that keep the three
overlapping BUILD.ERR rows (R77) one term per word: a later row is used only for words no earlier row has
(log entry 18). -/
def Instr.wellFormed : Instr → Bool
  | .buildErrB0 k _ _ => k
  | .buildErrPl k b _ => k && b
  | _ => true

end Sys2Proof
end

