-- ==== Sys2Proof/Decode.lean ====
section
/-! DEFINITION. The decoder of command words, the codec of the two header bytes, and the encoder. -/

namespace Sys2Proof

/-! ### Fields of the command word (R27) -/

/-- `op`, bits 1:0. -/
def cmdOp (w : Byte) : BitVec 2 := w.extractLsb' 0 2
/-- `mk`, bit 2. -/
def cmdMk (w : Byte) : Bool := w.getLsbD 2
/-- `p_pl`, bit 3. -/
def cmdPPl (w : Byte) : Bool := w.getLsbD 3
/-- `p_b0`, bit 4. -/
def cmdPB0 (w : Byte) : Bool := w.getLsbD 4
/-- `p_mk`, bit 5. -/
def cmdPMk (w : Byte) : Bool := w.getLsbD 5
/-- Bits 5:2, which must be 0 unless op is BUILD's. -/
def cmdBuildBits (w : Byte) : BitVec 4 := w.extractLsb' 2 4
/-- Bits 7:6, which must be 0. -/
def cmdReserved (w : Byte) : BitVec 2 := w.extractLsb' 6 2

/-! ### Fields of the header bytes (R61, R62) -/

/-- Bit 7 of header byte 0. -/
def byte0Fin (x : Byte) : Bool := x.getLsbD 7
/-- Bits 6:4 of header byte 0, which the document does not name. -/
def byte0Unnamed (x : Byte) : BitVec 3 := x.extractLsb' 4 3
/-- Bits 3:0 of header byte 0. -/
def byte0Opcode (x : Byte) : BitVec 4 := x.extractLsb' 0 4
/-- Bit 7 of header byte 1. -/
def byte1Mask (y : Byte) : Bool := y.getLsbD 7
/-- Bits 6:0 of header byte 1. -/
def byte1LenCode (y : Byte) : BitVec 7 := y.extractLsb' 0 7

/-- Header byte 0 as a WIRE.BYTE0 row; every byte is legal (R77, R78). -/
def decodeWireByte0 (x : Byte) : Instr := .wireByte0 (byte0Fin x) (byte0Unnamed x) (byte0Opcode x)
/-- Header byte 1 as a WIRE.BYTE1 row; every byte is legal (R77, R78). -/
def decodeWireByte1 (y : Byte) : Instr := .wireByte1 (byte1Mask y) (byte1LenCode y)

/-! ### The decoder -/

/-- The a_len column of the table: the payload or extension lengths that select a form row (R77). A row
without a condition admits every length. -/
def Instr.admits : Instr → Nat → Bool
  | .hdr2L16, n => n == 2
  | .hdr2K, n => n == 4
  | .hdr2L16K, n => n == 6
  | .hdr2L31, n => n == 8
  | .hdr2L31K, n => n == 12
  | .hdr2Bad, n => !(n == 2 || n == 4 || n == 6 || n == 8 || n == 12)
  | .buildS _, n => n ≤ 125
  | .buildM _, n => 126 ≤ n && n ≤ 65534
  | .buildL _, n => 65535 ≤ n
  | _, _ => true

/-- The operation row of a command word (R76), or the reason the word spells no operation (R80). -/
def decodeOperation (w : Byte) : Except DecodeError Instr :=
  if cmdReserved w ≠ 0#2 then .error .reservedBits
  else if cmdOp w = 0b11#2 then .ok (.build (cmdPMk w) (cmdPB0 w) (cmdPPl w) (cmdMk w))
  else if cmdBuildBits w ≠ 0#4 then .error .buildBitsOutsideBuild
  else if cmdOp w = 0b00#2 then .ok .hdr1
  else if cmdOp w = 0b01#2 then .ok .hdr2
  else .ok .xmask

/-- The form of HDR2 that an extension of `n` bytes selects (R64, R77). -/
def hdr2Form (n : Nat) : Instr :=
  if n = 2 then .hdr2L16
  else if n = 4 then .hdr2K
  else if n = 6 then .hdr2L16K
  else if n = 8 then .hdr2L31
  else if n = 12 then .hdr2L31K
  else .hdr2Bad

/-- The form of BUILD that the present bits and a payload of `n` bytes select (R77). Where several BUILD.ERR
rows fit, the first of the table is taken (log entry 18). -/
def buildForm (k b p m : Bool) (n : Nat) : Instr :=
  if k = false then .buildErrMk b p m
  else if b = false then .buildErrB0 k p m
  else if p = false then .buildErrPl k b m
  else if n ≤ 125 then .buildS m
  else if n ≤ 65534 then .buildM m
  else .buildL m

/-- The form row that refines a row, by a_len; rows without forms stand as they are (R77). -/
def refineByLength : Instr → Nat → Instr
  | .hdr2, n => hdr2Form n
  | .build k b p m, n => buildForm k b p m n
  | i, _ => i

/-- The decoder: it tests CMD and then a_len (R77). -/
def decode (w : Byte) (aLen : Nat) : Except DecodeError Instr :=
  match decodeOperation w with
  | .ok i => .ok (refineByLength i aLen)
  | .error e => .error e

/-- What the decoder reads from a table row's word, for the host. The table gives a row the 8 bits of CMD and
its operands no bits: every operand buffer is then empty, so a_len = 0 (log entry 7). -/
def decodeTableWord (nbits w : Nat) : Option Instr :=
  match decode (BitVec.ofNat 8 (w % 2 ^ nbits)) 0 with
  | .ok i => some i
  | .error _ => none

/-! ### The encoder, from the `encoding` column of the table (R61, R62, R76, R77) -/

/-- The command word `00kbpm11`. -/
def buildWord (k b p m : Bool) : Byte :=
  0#2 ++ BitVec.ofBool k ++ BitVec.ofBool b ++ BitVec.ofBool p ++ BitVec.ofBool m ++ 0b11#2

/-- Header byte 0, `frrroooo` (R61). -/
def encodeByte0 (f : Bool) (r : BitVec 3) (o : BitVec 4) : Byte := BitVec.ofBool f ++ r ++ o

/-- Header byte 1, `mlllllll` (R62), which is `mk * 128 + payload_len_code` (R68). -/
def encodeByte1 (m : Bool) (l : BitVec 7) : Byte := BitVec.ofBool m ++ l

/-- The 8 bits of an instruction's row. -/
def encode : Instr → Byte
  | .hdr1 => 0b00000000#8
  | .hdr2 => 0b00000001#8
  | .hdr2L16 => 0b00000001#8
  | .hdr2K => 0b00000001#8
  | .hdr2L16K => 0b00000001#8
  | .hdr2L31 => 0b00000001#8
  | .hdr2L31K => 0b00000001#8
  | .hdr2Bad => 0b00000001#8
  | .xmask => 0b00000010#8
  | .build k b p m => buildWord k b p m
  | .buildS m => buildWord true true true m
  | .buildM m => buildWord true true true m
  | .buildL m => buildWord true true true m
  | .buildErrMk b p m => buildWord false b p m
  | .buildErrB0 k p m => buildWord k false p m
  | .buildErrPl k b m => buildWord k b false m
  | .wireByte0 f r o => encodeByte0 f r o
  | .wireByte1 m l => encodeByte1 m l

end Sys2Proof
end

