-- ==== Sys2Proof/Machine/Operands.lean ====
section
/-! DEFINITION. Operand forms: reading buffers, assembling lengths as HDR2 reads them, laying them out as BUILD writes them, the rolling key, the seed update. -/

namespace Sys2Proof.Machine

/-! ### Reading an input buffer (R12, R45) -/

/-- `MemRead(buf, off, n)`: the `n` bytes from offset `off`. Every use has checked `off + n <= len(buf)` (R12). -/
def memRead (buf : Buffer) (off n : Nat) : Buffer := (buf.drop off).take n

/-- One byte of a buffer. Every use has checked `off < len(buf)`, so the default is never read (R12, R40). -/
def byteAt (buf : Buffer) (off : Nat) : Byte := buf.getD off 0#8

/-- The 4 raw key bytes at an offset of a buffer (R67). -/
def keyAt (buf : Buffer) (off : Nat) : MaskKey :=
  ⟨byteAt buf off, byteAt buf (off + 1), byteAt buf (off + 2), byteAt buf (off + 3)⟩

/-- XMASK's key buffer as a key: 4 bytes, and nothing else will do (R131, R134). -/
def keyOfBuffer : Buffer → Option MaskKey
  | [k0, k1, k2, k3] => some ⟨k0, k1, k2, k3⟩
  | _ => none

/-! ### Lengths as HDR2 reads them (the RX layout) -/

/-- The header fields HDR1 takes from its 2 bytes (R61, R62, R101). -/
def parseHeader (x y : Byte) : Header :=
  { fin := byte0Fin x, opcode := byte0Opcode x, payloadLenCode := byte1LenCode y, mask := byte1Mask y }

/-- The little-endian 16-bit length at offset 0 (R65). -/
def le16 (buf : Buffer) : BitVec 31 :=
  BitVec.ofNat 31 ((byteAt buf 0).toNat + 256 * (byteAt buf 1).toNat)

/-- The 31-bit length at offsets 0 to 3, bit 7 of byte 3 dropped (R66). The order of bytes 0 to 2 is the spec's
own reading (D6; log entry 12). -/
def long31 (buf : Buffer) : BitVec 31 :=
  BitVec.ofNat 31 ((byteAt buf 0).toNat + 2 ^ 8 * (byteAt buf 1).toNat + 2 ^ 16 * (byteAt buf 2).toNat
    + 2 ^ 24 * (byteAt buf 3 &&& 0x7F#8).toNat)

/-- A decoded length of exactly zero is reported as absent (R117). -/
def presentLength (l : BitVec 31) : Option (BitVec 31) := if l = 0#31 then none else some l

/-! ### Lengths as BUILD writes them (the TX layout) -/

/-- Bits 7:0 of a natural number. -/
def lowByte (v : Nat) : Byte := BitVec.ofNat 8 v

/-- `be16(v)` (R10). -/
def be16 (v : Nat) : Buffer := [lowByte (v / 2 ^ 8), lowByte v]

/-- `be32(v)` (R10). -/
def be32 (v : Nat) : Buffer := [lowByte (v / 2 ^ 24), lowByte (v / 2 ^ 16), lowByte (v / 2 ^ 8), lowByte v]

/-- `payload_len_code` for a payload of `n` bytes (R75). -/
def lenCode (n : Nat) : BitVec 7 :=
  if n ≤ 125 then BitVec.ofNat 7 n else if n < 65535 then 126#7 else 127#7

/-- The long length field: 4 big-endian bytes of the low 31 bits, then 2 zero bytes (R70). -/
def longField (n : Nat) : Buffer := be32 (n % 2 ^ 31) ++ [0#8, 0#8]

/-- The length field of a frame with a payload of `n` bytes: what steps 4 and 5 of R141 emit. -/
def lenField (n : Nat) : Buffer :=
  if lenCode n = 126#7 then be16 n else if lenCode n = 127#7 then longField n else []

/-! ### The rolling key (R132) -/

/-- Key byte `j`; only `j mod 4` matters. -/
def keyByte (key : MaskKey) (j : Nat) : Byte :=
  match j % 4 with
  | 0 => key.b0
  | 1 => key.b1
  | 2 => key.b2
  | _ => key.b3

/-- The 4 key bytes in buffer order (R42). -/
def keyBytes (key : MaskKey) : Buffer := [key.b0, key.b1, key.b2, key.b3]

/-- The masker's byte loop: each byte is XORed with the key byte the index points to, and the index advances by
1 modulo 4 (R32, R131). -/
def maskFrom (kp : BitVec 2) (key : MaskKey) : Buffer → Buffer
  | [] => []
  | b :: rest => (b ^^^ keyByte key kp.toNat) :: maskFrom (kp + 1#2) key rest

/-- One chunk of the wide masker: lane `j` is XORed with the replicated key's lane `j` (R137). -/
def maskChunk (key : MaskKey) (chunk : Buffer) : Buffer :=
  chunk.mapIdx fun j b => b ^^^ keyByte key j

/-- The wide masker of R137 with `q` full chunks of `w` bytes left to do: chunk by chunk, then the tail bytewise.
Implementers may use it in place of the byte loop; the machine runs the byte loop (log entry 16). -/
def wideMask (w : Nat) (key : MaskKey) : Nat → Buffer → Buffer
  | 0, tail => maskFrom 0#2 key tail
  | q + 1, buf => maskChunk key (buf.take w) ++ wideMask w key q (buf.drop w)

/-! ### The mask-key generator (R150) -/

/-- The seed update: XOR with the constant, times 31, modulo 2^32 (R150, D12). -/
def seedUpdate (c seed : Seed) : Seed := (seed ^^^ c) * 31#32

end Sys2Proof.Machine
end

