-- ==== Sys2Proof/Machine/Ops.lean ====
section
/-! DEFINITION. The named operations over the state: taking a request, beginning and ending a transaction, emitting output bytes, drawing a key, and the two failure results. -/

namespace Sys2Proof.Machine

/-! ### Taking a request (the fetch) -/

/-- CORE takes a command: the caller's operands are in the registers and the request is no longer pending (R26, R52).
The transaction at hand is this command's. -/
def State.takeCommand (c : Command) (rest : List Request) (s : State) : State :=
  { s with cmd := c.cmd, b0 := c.b0, a := c.a, k := c.k, pending := rest, served := some c }

/-- Between transactions every register but SEED is undefined (R26, R36): the last command's operands, its output
and its result record are gone, and each register holds a free value (log entries 5, 22). -/
def State.lapse (s : State) : State :=
  { s with
    cmd := Config.undefinedCmd s.draws
    b0 := Config.undefinedB0 s.draws
    a := Config.undefinedA s.draws
    k := Config.undefinedK s.draws
    o := Config.undefinedO s.draws
    status := Config.undefinedStatus s.draws
    hdr := Config.undefinedHdr s.draws
    extLen := Config.undefinedExtLen s.draws
    key := Config.undefinedKey s.draws
    payValid := Config.undefinedPayValid s.draws
    errArgs := Config.undefinedErrArgs s.draws
    kp := Config.undefinedKp s.draws
    ph := Config.undefinedPh s.draws
    served := none
    draws := s.draws + 1 }

/-- A reset between transactions: SEED gets SEED_RESET and nothing else is done (R200), so the transient registers
are undefined as between any two transactions; the requests still pending stay (log entry 11). -/
def State.takeReset (rest : List Request) (s : State) : State :=
  { s.lapse with seed := config.seedReset, pending := rest }

/-- The refusal of a command word that spells no operation (R80, R185). -/
def refusalOf : DecodeError → Refusal
  | .reservedBits => .reservedBits
  | .buildBitsOutsideBuild => .buildBitsOutsideBuild

/-- The caller issues a command ahead of whatever else is pending. -/
def State.issue (c : Command) (s : State) : State := { s with pending := .command c :: s.pending }

/-- The command of a table row's word: the word is CMD, and the operands, for which the table has no bits, are
zero and empty (log entry 7). -/
def commandOfWord (nbits w : Nat) : Command :=
  { cmd := BitVec.ofNat 8 (w % 2 ^ nbits), b0 := 0#8, a := [], k := [] }

/-! ### Beginning and ending a transaction -/

/-- The start of a transaction: nothing emitted (R30), key index 0 (R32), phase PH_HDR (R33). The fields of the
result record are undefined until the transaction writes them (R26; log entry 5). -/
def State.begin (s : State) : State :=
  { s with
    o := []
    hdr := Config.undefinedHdr s.draws
    extLen := Config.undefinedExtLen s.draws
    key := Config.undefinedKey s.draws
    payValid := Config.undefinedPayValid s.draws
    errArgs := Config.undefinedErrArgs s.draws
    kp := 0#2
    ph := .hdr
    draws := s.draws + 1 }

/-- The end of a transaction with a status: the moment of return. CMD, B0, the key index and the phase, of which
no rule says anything from then on, are undefined (R26, R32, R33; log entries 5, 22). -/
def State.finish (status : BitVec 2) (s : State) : State :=
  { s with
    status := status
    cmd := Config.undefinedCmd s.draws
    b0 := Config.undefinedB0 s.draws
    kp := Config.undefinedKp s.draws
    ph := Config.undefinedPh s.draws
    draws := s.draws + 1 }

/-- HDR1 and HDR2 have no output buffer (R30): O is undefined after they return (R26; log entry 5). -/
def State.noOutput (s : State) : State := { s with o := Config.undefinedO s.draws }

/-! ### The failure results: what CORE has in place of taking an exception (R180, R189)

Nothing is saved, no control goes anywhere, and there is nothing to return from (R189, R191). -/

/-- `raise Absent` (R12, R181): the transaction ends with status 01 and an empty O (R30). The operation sets its
own valid flags to 0 before it raises. -/
def State.raiseAbsent (s : State) : State := State.finish statusAbsent { s with o := [] }

/-- `raise InvalidArguments` (R12, R182): the transaction ends with status 10, err_args 1 and an empty O (R30). -/
def State.raiseInvalidArguments (s : State) : State :=
  State.finish statusInvalidArgs { s with o := [], errArgs := true }

/-! ### Emitting output bytes (R12, R40, R45) -/

/-- `emit(v)`: append bytes to O, front to back. -/
def State.emit (v : Buffer) (s : State) : State := { s with o := s.o ++ v }

/-- Append bytes to O through the masker, from the state's key index on (R32, R132, R152). -/
def State.emitMasked (key : MaskKey) (v : Buffer) (s : State) : State :=
  { s with o := s.o ++ maskFrom s.kp key v, kp := s.kp + BitVec.ofNat 2 v.length }

/-- The multiplexer moves to a phase (R33, R149). -/
def State.enter (p : Phase) (s : State) : State := { s with ph := p }

/-! ### The mask-key generator (R150, R151) -/

/-- One call of the generator: SEED is updated once (R150). -/
def State.advanceSeed (cfg : Config) (s : State) : State :=
  { s with seed := seedUpdate cfg.seedXorConst s.seed }

/-- The key bytes, taken from the updated seed (R151). -/
def State.currentKey (cfg : Config) (s : State) : MaskKey := cfg.keyOfSeed s.seed

end Sys2Proof.Machine
end

