-- ==== Sys2Proof/Machine/ExtendedParser.lean ====
section
/-! DEFINITION. ExtendedFieldParser: the meanings of HDR2 and of its six forms (R110 to R122). -/

namespace Sys2Proof.Machine

/-- HDR2 returns a length and a key, each perhaps absent, and the status they give (R31, R111). -/
def State.returnExtended (extLen : Option (BitVec 31)) (key : Option MaskKey) (s : State) : State :=
  State.finish (hdr2Status extLen key) { s.begin.noOutput with extLen := extLen, key := key }

/-- HDR2 on a length it does not admit: both outputs absent, no byte of A read (R118). -/
def State.rejectExtended (s : State) : State :=
  State.raiseAbsent { s.begin with extLen := none, key := none }

/-- A form row runs on the lengths that select it (R77); on others it is no command (log entry 9). -/
def whenSelected (i : Instr) (s t : State) : Host.Outcome State Fault Refusal :=
  if i.admits s.a.length then .next t else .refused .formNotSelected

/-- HDR2, the whole operation, by the length of A (R111). -/
def execHdr2 (s : State) : Host.Outcome State Fault Refusal :=
  match s.a.length with
  | 2 => .next (s.returnExtended (presentLength (le16 s.a)) none)
  | 4 => .next (s.returnExtended none (some (keyAt s.a 0)))
  | 6 => .next (s.returnExtended (presentLength (le16 s.a)) (some (keyAt s.a 2)))
  | 8 => .next (s.returnExtended (presentLength (long31 s.a)) none)
  | 12 => .next (s.returnExtended (presentLength (long31 s.a)) (some (keyAt s.a 8)))
  | _ => .next s.rejectExtended

/-- HDR2.L16 (R112). -/
def execHdr2L16 (s : State) : Host.Outcome State Fault Refusal :=
  whenSelected .hdr2L16 s (s.returnExtended (presentLength (le16 s.a)) none)

/-- HDR2.K (R113). -/
def execHdr2K (s : State) : Host.Outcome State Fault Refusal :=
  whenSelected .hdr2K s (s.returnExtended none (some (keyAt s.a 0)))

/-- HDR2.L16K (R114). -/
def execHdr2L16K (s : State) : Host.Outcome State Fault Refusal :=
  whenSelected .hdr2L16K s (s.returnExtended (presentLength (le16 s.a)) (some (keyAt s.a 2)))

/-- HDR2.L31 (R115). -/
def execHdr2L31 (s : State) : Host.Outcome State Fault Refusal :=
  whenSelected .hdr2L31 s (s.returnExtended (presentLength (long31 s.a)) none)

/-- HDR2.L31K (R116). -/
def execHdr2L31K (s : State) : Host.Outcome State Fault Refusal :=
  whenSelected .hdr2L31K s (s.returnExtended (presentLength (long31 s.a)) (some (keyAt s.a 8)))

/-- HDR2.BAD (R118). -/
def execHdr2Bad (s : State) : Host.Outcome State Fault Refusal :=
  whenSelected .hdr2Bad s s.rejectExtended

end Sys2Proof.Machine
end

