-- ==== Sys2Proof/Machine/Builder.lean ====
section
/-! DEFINITION. FrameBuilder: the meanings of BUILD and of its length classes and error rows (R140 to R158). -/

namespace Sys2Proof.Machine

/-- PH_HDR: byte 0 is B0, verbatim, and byte 1 the mask flag and the code (steps 1 and 3 of R141). -/
def State.headerPhase (m : Bool) (code : BitVec 7) (s : State) : State :=
  (s.enter .hdr).emit [s.b0, encodeByte1 m code]

/-- PH_LEN: the length field (steps 4 and 5 of R141). -/
def State.lengthPhase (field : Buffer) (s : State) : State := (s.enter .len).emit field

/-- PH_KEY and PH_PAY with the mask flag set (step 6 of R141): the seed advances once, before the first key byte
(R149, R150); then the key, then the payload XORed with it. An empty payload is masked zero times (R153). -/
def State.maskedPhases (cfg : Config) (s : State) : State :=
  let t := s.advanceSeed cfg
  let key := t.currentKey cfg
  (((t.enter .key).emit (keyBytes key)).enter .pay).emitMasked key s.a

/-- PH_PAY without the mask flag (step 7 of R141). -/
def State.rawPhase (s : State) : State := (s.enter .pay).emit s.a

/-- A frame with a given code and length field, through the multiplexer's phases in their order (R149). -/
def State.returnFrame (cfg : Config) (m : Bool) (code : BitVec 7) (field : Buffer) (s : State) : State :=
  let t := (s.begin.headerPhase m code).lengthPhase field
  State.finish (buildStatus false) { (if m then t.maskedPhases cfg else t.rawPhase) with errArgs := false }

/-- BUILD without one of its arguments: nothing is read, emitted or advanced (R142). -/
def State.rejectArguments (s : State) : State := s.begin.raiseInvalidArguments

/-- BUILD, the whole operation (R141). -/
def execBuild (k b p m : Bool) (s : State) : Host.Outcome State Fault Refusal :=
  if k && b && p then .next (s.returnFrame config m (lenCode s.a.length) (lenField s.a.length))
  else .next s.rejectArguments

/-- BUILD.S (R143): the code is the length and there is no length field. -/
def execBuildS (m : Bool) (s : State) : Host.Outcome State Fault Refusal :=
  whenSelected (.buildS m) s (s.returnFrame config m (BitVec.ofNat 7 s.a.length) [])

/-- BUILD.M (R144): code 126 and a 2-byte big-endian length. -/
def execBuildM (m : Bool) (s : State) : Host.Outcome State Fault Refusal :=
  whenSelected (.buildM m) s (s.returnFrame config m 126#7 (be16 s.a.length))

/-- BUILD.L (R145): code 127 and the 6-byte length field. -/
def execBuildL (m : Bool) (s : State) : Host.Outcome State Fault Refusal :=
  whenSelected (.buildL m) s (s.returnFrame config m 127#7 (longField s.a.length))

/-- BUILD.ERR, the row with p_mk = 0 (R142). -/
def execBuildErrMk (s : State) : Host.Outcome State Fault Refusal := .next s.rejectArguments

/-- BUILD.ERR, the row with p_b0 = 0 (R142). -/
def execBuildErrB0 (s : State) : Host.Outcome State Fault Refusal := .next s.rejectArguments

/-- BUILD.ERR, the row with p_pl = 0 (R142). -/
def execBuildErrPl (s : State) : Host.Outcome State Fault Refusal := .next s.rejectArguments

end Sys2Proof.Machine
end

