-- ==== Sys2Proof/Machine/HeaderParser.lean ====
section
/-! DEFINITION. FrameHeaderParser: the meaning of HDR1 (R100 to R105). -/

namespace Sys2Proof.Machine

/-- HDR1 returns a header and the status it gives (R31, R101). -/
def State.returnHeader (h : Header) (s : State) : State :=
  State.finish (hdr1Status (some h)) { s.begin.noOutput with hdr := some h }

/-- HDR1 on a length that is not 2: all four outputs absent (R103). -/
def State.rejectHeader (s : State) : State := State.raiseAbsent { s.begin with hdr := none }

/-- HDR1 (R101): 2 bytes give the four header fields; any other length gives the absent result (R103). -/
def execHdr1 (s : State) : Host.Outcome State Fault Refusal :=
  match s.a with
  | [x, y] => .next (s.returnHeader (parseHeader x y))
  | _ => .next s.rejectHeader

end Sys2Proof.Machine
end

