-- ==== Sys2Proof/Machine/Masker.lean ====
section
/-! DEFINITION. PayloadMasker: the meaning of XMASK (R130 to R138). -/

namespace Sys2Proof.Machine

/-- XMASK returns the payload XORed with the rolling key. Where the implementer chose the in-place form, the
payload buffer A then holds the output (R23, R56, R131; log entry 6). -/
def State.returnMasked (cfg : Config) (key : MaskKey) (s : State) : State :=
  let t := s.begin.emitMasked key s.a
  State.finish (xmaskStatus true) { t with payValid := true, a := if cfg.xmaskInPlace then t.o else t.a }

/-- XMASK on a key that is not 4 bytes, or an empty payload: the absent result (R131, R136). -/
def State.rejectMask (s : State) : State := State.raiseAbsent { s.begin with payValid := false }

/-- XMASK (R131): a 4-byte key and a non-empty payload give the masked payload; otherwise the one absent result,
whichever cause (R136), with the payload buffer untouched. -/
def execXmask (s : State) : Host.Outcome State Fault Refusal :=
  match keyOfBuffer s.k, s.a with
  | some key, _ :: _ => .next (s.returnMasked config key)
  | _, _ => .next s.rejectMask

end Sys2Proof.Machine
end

