-- ==== Sys2Proof/Machine/Wire.lean ====
section
/-! DEFINITION. The two WIRE rows of the opcode table as commands: they are none (R77). -/

namespace Sys2Proof.Machine

/-- WIRE.BYTE0 run as a command. The table's row is "Not a command": it gives header byte 0's layout, which
HDR1 and BUILD use through Decode.lean's codec. No transaction happens (R80's treatment; log entry 8). -/
def execWireByte0 (_ : State) : Host.Outcome State Fault Refusal := .refused .notACommand

/-- WIRE.BYTE1 run as a command; as WIRE.BYTE0. -/
def execWireByte1 (_ : State) : Host.Outcome State Fault Refusal := .refused .notACommand

end Sys2Proof.Machine
end

