-- ==== Sys2Proof/Machine/Dispatch.lean ====
section
/-! DEFINITION. exec: one arm per constructor of Instr, each one call of that instruction's meaning. -/

namespace Sys2Proof.Machine

def exec (i : Instr) (s : State) : Host.Outcome State Fault Refusal :=
  match i with
  | .hdr1 => Sys2Proof.Machine.execHdr1 s
  | .hdr2 => Sys2Proof.Machine.execHdr2 s
  | .hdr2L16 => Sys2Proof.Machine.execHdr2L16 s
  | .hdr2K => Sys2Proof.Machine.execHdr2K s
  | .hdr2L16K => Sys2Proof.Machine.execHdr2L16K s
  | .hdr2L31 => Sys2Proof.Machine.execHdr2L31 s
  | .hdr2L31K => Sys2Proof.Machine.execHdr2L31K s
  | .hdr2Bad => Sys2Proof.Machine.execHdr2Bad s
  | .xmask => Sys2Proof.Machine.execXmask s
  | .build k b p m => Sys2Proof.Machine.execBuild k b p m s
  | .buildS m => Sys2Proof.Machine.execBuildS m s
  | .buildM m => Sys2Proof.Machine.execBuildM m s
  | .buildL m => Sys2Proof.Machine.execBuildL m s
  | .buildErrMk _ _ _ => Sys2Proof.Machine.execBuildErrMk s
  | .buildErrB0 _ _ _ => Sys2Proof.Machine.execBuildErrB0 s
  | .buildErrPl _ _ _ => Sys2Proof.Machine.execBuildErrPl s
  | .wireByte0 _ _ _ => Sys2Proof.Machine.execWireByte0 s
  | .wireByte1 _ _ => Sys2Proof.Machine.execWireByte1 s

end Sys2Proof.Machine
end

