-- ==== Sys2Proof/Machine/Step.lean ====
section
/-! DEFINITION. One step of CORE: one whole transaction, or a reset between transactions, or the time between transactions when the caller asks for nothing. -/

namespace Sys2Proof.Machine

/-- One step (R50, R52, D1): the oldest pending request is served. A command is decoded by CMD and a_len (R77)
and executed as one atomic transaction; a word that spells no operation is refused and no transaction happens
(R80). With nothing pending no transaction happens and the last result lapses (R26; log entry 20). -/
def step (s : State) : Host.Outcome State Fault Refusal :=
  match s.pending with
  | [] => .next s.lapse
  | .reset :: rest => .next (s.takeReset rest)
  | .command c :: rest =>
    match decode c.cmd c.a.length with
    | .ok i => exec i (s.takeCommand c rest)
    | .error e => .refused (refusalOf e)

/-- The state with a table row's word as the next command CORE takes (log entry 7). -/
def State.withFetchWord (s : State) (nbits w : Nat) : State := s.issue (commandOfWord nbits w)

end Sys2Proof.Machine
end

