-- ==== Sys2Proof/Machine/Caller.lean ====
section
/-! DEFINITION. What the caller does with CORE: the commands of the script syntax (R83) and the two caller sequences DECODE_FRAME and ENCODE_FRAME (R84, R170 to R177). -/

namespace Sys2Proof.Machine

/-! ### Commands, as the script syntax of R83 spells them -/

/-- `HDR1 A=...`. -/
def Command.hdr1 (a : Buffer) : Command := { cmd := 0x00#8, b0 := 0#8, a := a, k := [] }

/-- `HDR2 A=...`. -/
def Command.hdr2 (a : Buffer) : Command := { cmd := 0x01#8, b0 := 0#8, a := a, k := [] }

/-- `XMASK K=... A=...`. -/
def Command.xmask (k a : Buffer) : Command := { cmd := 0x02#8, b0 := 0#8, a := a, k := k }

/-- `BUILD A=... B0=... MK=...`, any operand perhaps left out: its present bit is then 0 (R83). -/
def Command.build (a : Option Buffer) (b0 : Option Byte) (m : Option Bool) : Command :=
  { cmd := buildWord m.isSome b0.isSome a.isSome (m.getD false), b0 := b0.getD 0#8, a := a.getD [], k := [] }

/-- One transaction of the caller's: the command goes ahead of anything pending, and one step serves it. -/
def transact (c : Command) (s : State) : Host.Outcome State Fault Refusal := step (s.issue c)

/-- Going on after a transaction that returned. -/
def afterward {α β : Type} (o : Host.Outcome α Fault Refusal) (f : α → Host.Outcome β Fault Refusal) :
    Host.Outcome β Fault Refusal :=
  match o with
  | .next a => f a
  | .fault r => .fault r
  | .refused r => .refused r

/-! ### The decode flow -/

/-- The dispatch table: the number of extension bytes, from the code and the mask flag (R72, R172). -/
def dispatchSize (code : BitVec 7) (mask : Bool) : Nat :=
  match mask with
  | false => if code.toNat ≤ 125 then 0 else if code.toNat = 126 then 2 else 8
  | true => if code.toNat ≤ 125 then 4 else if code.toNat = 126 then 6 else 12

/-- The payload length: the code itself up to 125, else the extended length, an absent one meaning 0 (R173, D24). -/
def resolvedLength (code : BitVec 7) (extLen : Option (BitVec 31)) : Nat :=
  if code.toNat ≤ 125 then code.toNat
  else match extLen with
    | some l => l.toNat
    | none => 0

/-- What the caller holds after DECODE_FRAME. -/
inductive FrameRead where
  /-- A whole frame: its FIN bit, its opcode, its application payload, and the bytes of the buffer it took. -/
  | frame (fin : Bool) (opcode : BitVec 4) (body : Buffer) (consumed : Nat)
  /-- The buffer ends before the frame does; what the caller does then is out of scope (R171; log entry 15). -/
  | incomplete
  /-- An operation returned absent where the sequence needs a value: the caller closes the connection (R171). -/
  | unparseable
deriving DecidableEq, Repr

/-- The end of DECODE_FRAME, once the header and `n` extension bytes are read: cut the body, and unmask it if the
frame is masked and the body not empty (R171, R174). -/
def decodeBody (f : Buffer) (h : Header) (n : Nat) (extLen : Option (BitVec 31)) (key : Option MaskKey) (s : State) :
    Host.Outcome (FrameRead × State) Fault Refusal :=
  let p := resolvedLength h.payloadLenCode extLen
  if f.length < 2 + n + p then .next (.incomplete, s)
  else if h.mask && decide (0 < p) then
    match key with
    | none => .next (.unparseable, s)
    | some key =>
      afterward (transact (Command.xmask (keyBytes key) (memRead f (2 + n) p)) s) fun t =>
        .next (if t.payValid then .frame h.fin h.opcode t.o (2 + n + p) else .unparseable, t)
  else .next (.frame h.fin h.opcode (memRead f (2 + n) p) (2 + n + p), s)

/-- DECODE_FRAME (R171): HDR1 on the first 2 bytes, HDR2 on the extension if there is one, the slice, and XMASK. -/
def decodeFrame (f : Buffer) (s : State) : Host.Outcome (FrameRead × State) Fault Refusal :=
  if f.length < 2 then .next (.incomplete, s)
  else afterward (transact (Command.hdr1 (memRead f 0 2)) s) fun s1 =>
    match s1.hdr with
    | none => .next (.unparseable, s1)
    | some h =>
      let n := dispatchSize h.payloadLenCode h.mask
      if n = 0 then decodeBody f h 0 none none s1
      else if f.length < 2 + n then .next (.incomplete, s1)
      else afterward (transact (Command.hdr2 (memRead f 2 n)) s1) fun s2 =>
        decodeBody f h n s2.extLen s2.key s2

/-! ### The encode flow -/

/-- ENCODE_FRAME (R175): one BUILD with all three operands; its output buffer is the frame. -/
def encodeFrame (payload : Buffer) (b0 : Byte) (m : Bool) (s : State) : Host.Outcome State Fault Refusal :=
  transact (Command.build (some payload) (some b0) (some m)) s

end Sys2Proof.Machine
end

