-- ==== Sys2Proof/Safety.lean ====
section
/-! DEFINITION. What counts as a safe run of CORE, the invariant of its result record, and the reference values that statements compare the machine with. -/

namespace Sys2Proof.Machine

/-! ### Safe runs -/

/-- A command whose word spells an operation (R80). -/
def Command.legal (c : Command) : Bool :=
  match decode c.cmd c.a.length with
  | .ok _ => true
  | .error _ => false

/-- A request the model gives a meaning. -/
def Request.legal : Request → Bool
  | .command c => c.legal
  | .reset => true

/-- A state whose run is safe: every pending request has a meaning, so no step refuses. -/
def State.servable (s : State) : Bool := s.pending.all Request.legal

/-! ### Frames and reference values -/

/-- What no operation writes: the operand buffers, the requests still pending, and whose transaction it is. CMD
and B0 are not among them, since they are undefined once the transaction has returned (R26; log entry 22). -/
def State.keepsOperands (s t : State) : Prop :=
  t.a = s.a ∧ t.k = s.k ∧ t.pending = s.pending ∧ t.served = s.served

/-- The instructions that read and write SEED: a BUILD that returns a frame with mk = 1 (R150, R154). -/
def drawsKey : Instr → Bool
  | .build k b p m => k && b && p && m
  | .buildS m => m
  | .buildM m => m
  | .buildL m => m
  | _ => false

/-- `A[i] xor K[i mod 4]` at every offset `i` (R131, R132). -/
def maskedBy (k a : Buffer) : Buffer := a.mapIdx fun i b => b ^^^ k.getD (i % 4) 0#8

/-- SEED after a BUILD that returns a frame: updated if and only if mk = 1 (R154). -/
def seedAfter (m : Bool) (seed : Seed) : Seed :=
  if m then (seed ^^^ config.seedXorConst) * 31#32 else seed

/-- The bytes of the key a masked BUILD emits when SEED is `seed` before it (R151). -/
def keyAfter (seed : Seed) : Buffer := keyBytes (config.keyOfSeed (seedAfter true seed))

/-- What follows the length field in a frame: key and masked payload, or the raw payload (steps 6 and 7 of R141). -/
def keyAndPayload (m : Bool) (seed : Seed) (a : Buffer) : Buffer :=
  if m then keyAfter seed ++ maskedBy (keyAfter seed) a else a

/-- The bytes of the length field of a frame, `e` of R148. -/
def lengthFieldSize (n : Nat) : Nat := if n ≤ 125 then 0 else if n ≤ 65534 then 2 else 6

/-- The length of a frame with a payload of `n` bytes (R148). -/
def frameLength (m : Bool) (n : Nat) : Nat := 2 + lengthFieldSize n + (if m then 4 else 0) + n

/-! ### The invariant of the result record -/

/-- The result record and O agree with a command: the status is the one R31 gives for the
operation's flags, each flag is 1 exactly when its rule says so, an extended length is never 0 (R117), a failure
leaves O empty (R30), and O has the length of R131 or R148. -/
def State.agreesWith (s : State) (c : Command) : Prop :=
  if cmdOp c.cmd = 0b00#2 then
    s.status = (if s.hdr.isNone then 0b01#2 else 0b00#2) ∧ (s.hdr ≠ none ↔ c.a.length = 2) ∧
    (s.hdr = none → s.o = [])
  else if cmdOp c.cmd = 0b01#2 then
    s.status = (if s.extLen.isNone && s.key.isNone then 0b01#2 else 0b00#2) ∧
    s.extLen ≠ some 0#31 ∧
    (s.extLen ≠ none → c.a.length ∈ [2, 6, 8, 12]) ∧
    (s.key ≠ none ↔ c.a.length ∈ [4, 6, 12]) ∧
    (c.a.length ∉ [2, 4, 6, 8, 12] → s.o = [])
  else if cmdOp c.cmd = 0b10#2 then
    s.status = (if s.payValid then 0b00#2 else 0b01#2) ∧
    (s.payValid = true ↔ c.k.length = 4 ∧ c.a ≠ []) ∧
    s.o.length = (if s.payValid then c.a.length else 0)
  else
    s.status = (if s.errArgs then 0b10#2 else 0b00#2) ∧
    (s.errArgs = true ↔ (cmdPPl c.cmd && cmdPB0 c.cmd && cmdPMk c.cmd) = false) ∧
    s.o.length = (if s.errArgs then 0 else frameLength (cmdMk c.cmd) c.a.length)

/-- While the result of a command stands, that command spelled an operation and the record and O agree with it;
between transactions there is no result to speak of (R26; log entry 22). -/
def State.recordAgrees (s : State) : Prop :=
  ∀ c, s.served = some c → c.legal = true ∧ s.agreesWith c

end Sys2Proof.Machine
end

