-- ==== Sys2Proof/Certificates/Slice0/Obligations.lean ====
section
/-! DEFINITION. The statements for the provers. -/

open Sys2Proof Sys2Proof.Machine

/-! ### Encoding -/

/-- Decoding what is encoded gives it back: command words of well-formed rows no other row refines, at every a_len
the row admits; operation rows at the operation level; the two header bytes, every bit of them. Of the overlapping
BUILD.ERR rows the first that fits a word is decoded, the model's choice (log entry 18), so the terms buildErrB0 with
k = 0 and buildErrPl with k = 0 or b = 0, whose words an earlier row has, are not well formed and not covered here:
FormsAreSelectedByLength says what their words decode to. -/
def Obligations.DecodeEncodeAgree : Prop :=
  (∀ (i : Instr) (n : Nat), i.wellFormed = true → i.isFinal = true → i.admits n = true →
    decode (encode i) n = .ok i) ∧
  (∀ i : Instr, i.kind = .operation → decodeOperation (encode i) = .ok i) ∧
  (∀ f r o, decodeWireByte0 (encode (.wireByte0 f r o)) = .wireByte0 f r o) ∧
  (∀ m l, decodeWireByte1 (encode (.wireByte1 m l)) = .wireByte1 m l)

/-- Encoding what was decoded gives the word back, and what was decoded is a well-formed final row whose length
condition holds. That one of the overlapping BUILD.ERR rows (R77) alone is the reading of a word is the model's
choice: the first row that fits (log entry 18). -/
def Obligations.EncodeDecodeAgree : Prop :=
  (∀ (w : Byte) (n : Nat) (i : Instr), decode w n = .ok i →
    encode i = w ∧ i.wellFormed = true ∧ i.isFinal = true ∧ i.admits n = true) ∧
  (∀ x : Byte, encode (decodeWireByte0 x) = x ∧ encode (decodeWireByte1 x) = x)

/-- Words written out from R76 and section 2.6 of the vectors decode as they should. -/
def Obligations.SampleCommandWordsDecode : Prop :=
  decode 0x00#8 2 = .ok .hdr1 ∧ decode 0x01#8 12 = .ok .hdr2L31K ∧ decode 0x02#8 5 = .ok .xmask ∧
  decode 0x3B#8 125 = .ok (.buildS false) ∧ decode 0x3F#8 126 = .ok (.buildM true) ∧
  decode 0x3F#8 65535 = .ok (.buildL true) ∧ decode 0x1B#8 5 = .ok (.buildErrMk true true false) ∧
  decode 0x2F#8 5 = .ok (.buildErrB0 true true true) ∧ decode 0x37#8 0 = .ok (.buildErrPl true true true) ∧
  decode 0x04#8 2 = .error .buildBitsOutsideBuild ∧ decode 0xFF#8 2 = .error .reservedBits

/-- The forms are selected by an operand length (R77): HDR2's by a_len, BUILD's by a_len when all three arguments
are present, and a missing argument selects BUILD.ERR whatever a_len is. -/
def Obligations.FormsAreSelectedByLength : Prop :=
  (∀ n : Nat, decode 0x01#8 n = .ok
    (if n = 2 then .hdr2L16 else if n = 4 then .hdr2K else if n = 6 then .hdr2L16K
     else if n = 8 then .hdr2L31 else if n = 12 then .hdr2L31K else .hdr2Bad)) ∧
  (∀ n : Nat, decode 0x3B#8 n = .ok
    (if n ≤ 125 then .buildS false else if n ≤ 65534 then .buildM false else .buildL false)) ∧
  (∀ n : Nat, decode 0x3F#8 n = .ok
    (if n ≤ 125 then .buildS true else if n ≤ 65534 then .buildM true else .buildL true)) ∧
  (∀ (b p m : Bool) (n : Nat), decode (buildWord false b p m) n = .ok (.buildErrMk b p m)) ∧
  (∀ (p m : Bool) (n : Nat), decode (buildWord true false p m) n = .ok (.buildErrB0 true p m)) ∧
  (∀ (m : Bool) (n : Nat), decode (buildWord true true false m) n = .ok (.buildErrPl true true m))

/-- R80, the spec's decision D25. A step refuses a command exactly when its word has CMD[7:6] not 0, or CMD[5:2] not 0 with op not 11; every
other command runs to a next state. -/
def Obligations.StepRefusesExactlyReservedWords : Prop :=
  ∀ (s : State) (c : Command) (rest : List Request), s.pending = .command c :: rest →
    ((∃ r, step s = .refused r) ↔
      (c.cmd.extractLsb' 6 2 ≠ 0#2 ∨ (c.cmd.extractLsb' 0 2 ≠ 0b11#2 ∧ c.cmd.extractLsb' 2 4 ≠ 0#4))) ∧
    ((∃ t, step s = .next t) ↔
      (c.cmd.extractLsb' 6 2 = 0#2 ∧ (c.cmd.extractLsb' 0 2 = 0b11#2 ∨ c.cmd.extractLsb' 2 4 = 0#4)))

/-! ### The step -/

/-- When the oldest pending request is a command whose word decodes to `i`, the step is exec of `i` with the
command's operands in the registers, the request taken, and the transaction marked as this command's (log entry 22). -/
def Obligations.StepRunsDecodedInstruction : Prop :=
  ∀ (s : State) (c : Command) (rest : List Request) (i : Instr), s.pending = .command c :: rest →
    decode c.cmd c.a.length = .ok i →
    step s = exec i { s with cmd := c.cmd, b0 := c.b0, a := c.a, k := c.k, pending := rest, served := some c }

/-- After reset SEED is SEED_RESET, both in the state after reset and after a reset the caller asks for between
transactions; the requests behind that one stay pending, and no earlier result stands (R200, decisions D14 and D23;
log entries 3, 11 and 22). -/
def Obligations.ResetSetsSeedToSeedReset : Prop :=
  State.reset.seed = config.seedReset ∧
  ∀ (s : State) (rest : List Request), s.pending = .reset :: rest →
    ∃ t, step s = .next t ∧ t.seed = config.seedReset ∧ t.pending = rest ∧ t.served = none

/-- Between transactions (R20, R26): with nothing pending a step keeps SEED, takes nothing, and the last result no
longer stands; what the transient registers hold is then undefined. That such a time is a step is the model's choice
(log entries 20 and 22). -/
def Obligations.IdleStepKeepsSeed : Prop :=
  ∀ s : State, s.pending = [] →
    ∃ t, step s = .next t ∧ t.seed = s.seed ∧ t.pending = [] ∧ t.served = none

/-- Nothing but SEED is carried from one transaction to the next (R20, R26, R191): two states with one SEED and one
queue, whatever all their transient registers hold, have the same step. (`draws`, the counter that names the
undefined values, is the model's own; log entry 5.) -/
def Obligations.OnlySeedOutlivesATransaction : Prop :=
  ∀ s s' : State, s.seed = s'.seed → s.pending = s'.pending → s.draws = s'.draws → step s = step s'

/-! ### HDR1 -/

/-- HDR1 (R101): 2 bytes give the four fields at the bit positions of R61 and R62, any other length the absent
result; nothing else the caller handed over in the buffers changes, and SEED does not. -/
def Obligations.Hdr1ParsesExactlyTwoBytes : Prop :=
  (∀ n : Nat, decode 0x00#8 n = .ok .hdr1) ∧
  (∀ (s : State) (x y : Byte), s.a = [x, y] →
    ∃ t, exec .hdr1 s = .next t ∧
      t.hdr = some ⟨x.getLsbD 7, x.extractLsb' 0 4, y.extractLsb' 0 7, y.getLsbD 7⟩ ∧
      t.status = 0b00#2 ∧ t.seed = s.seed ∧ s.keepsOperands t) ∧
  (∀ s : State, s.a.length ≠ 2 →
    ∃ t, exec .hdr1 s = .next t ∧ t.hdr = none ∧ t.status = 0b01#2 ∧ t.seed = s.seed ∧ s.keepsOperands t)

/-- Bits 6:4 of byte 0 have no effect on HDR1's outputs, and every opcode is returned as it stands (R104). -/
def Obligations.Hdr1IgnoresUnnamedBits : Prop :=
  ∀ (s : State) (x x' y : Byte), x.getLsbD 7 = x'.getLsbD 7 → x.extractLsb' 0 4 = x'.extractLsb' 0 4 →
    ∃ t t', exec .hdr1 { s with a := [x, y] } = .next t ∧ exec .hdr1 { s with a := [x', y] } = .next t' ∧
      t.hdr = t'.hdr ∧ t.status = t'.status ∧ t.hdr ≠ none ∧
      t.hdr.map Header.opcode = some (x.extractLsb' 0 4)

/-! ### HDR2 -/

/-- HDR2.L16 (R112 with R117). -/
def Obligations.Hdr2L16ReadsLittleEndianLength : Prop :=
  ∀ (s : State) (a0 a1 : Byte), s.a = [a0, a1] →
    ∃ t, exec .hdr2L16 s = .next t ∧
      t.extLen.map BitVec.toNat =
        (if a0.toNat + 256 * a1.toNat = 0 then none else some (a0.toNat + 256 * a1.toNat)) ∧
      t.key = none ∧ t.status = (if a0.toNat + 256 * a1.toNat = 0 then 0b01#2 else 0b00#2) ∧
      t.seed = s.seed ∧ s.keepsOperands t

/-- HDR2.K (R113). -/
def Obligations.Hdr2KReturnsTheFourBytes : Prop :=
  ∀ (s : State) (k0 k1 k2 k3 : Byte), s.a = [k0, k1, k2, k3] →
    ∃ t, exec .hdr2K s = .next t ∧ t.extLen = none ∧ t.key = some ⟨k0, k1, k2, k3⟩ ∧ t.status = 0b00#2 ∧
      t.seed = s.seed ∧ s.keepsOperands t

/-- HDR2.L16K (R114 with R117). -/
def Obligations.Hdr2L16KReadsLengthAndKey : Prop :=
  ∀ (s : State) (a0 a1 k0 k1 k2 k3 : Byte), s.a = [a0, a1, k0, k1, k2, k3] →
    ∃ t, exec .hdr2L16K s = .next t ∧
      t.extLen.map BitVec.toNat =
        (if a0.toNat + 256 * a1.toNat = 0 then none else some (a0.toNat + 256 * a1.toNat)) ∧
      t.key = some ⟨k0, k1, k2, k3⟩ ∧ t.status = 0b00#2 ∧ t.seed = s.seed ∧ s.keepsOperands t

/-- HDR2.L31 (R115 with R117): bytes 4 to 7 and bit 7 of byte 3 have no effect. The order of bytes 0 to 2 is the
spec's decision D6. -/
def Obligations.Hdr2L31ReadsThirtyOneBits : Prop :=
  ∀ (s : State) (a0 a1 a2 a3 a4 a5 a6 a7 : Byte), s.a = [a0, a1, a2, a3, a4, a5, a6, a7] →
    ∃ t, exec .hdr2L31 s = .next t ∧
      t.extLen.map BitVec.toNat =
        (if a0.toNat + 2 ^ 8 * a1.toNat + 2 ^ 16 * a2.toNat + 2 ^ 24 * (a3.toNat % 128) = 0 then none
         else some (a0.toNat + 2 ^ 8 * a1.toNat + 2 ^ 16 * a2.toNat + 2 ^ 24 * (a3.toNat % 128))) ∧
      t.key = none ∧ t.status = (if t.extLen.isNone then 0b01#2 else 0b00#2) ∧
      t.seed = s.seed ∧ s.keepsOperands t

/-- HDR2.L31K (R116 with R115 and R117; the order of bytes 0 to 2 is the spec's decision D6). -/
def Obligations.Hdr2L31KReadsLengthAndKey : Prop :=
  ∀ (s : State) (a0 a1 a2 a3 a4 a5 a6 a7 k0 k1 k2 k3 : Byte),
    s.a = [a0, a1, a2, a3, a4, a5, a6, a7, k0, k1, k2, k3] →
    ∃ t, exec .hdr2L31K s = .next t ∧
      t.extLen.map BitVec.toNat =
        (if a0.toNat + 2 ^ 8 * a1.toNat + 2 ^ 16 * a2.toNat + 2 ^ 24 * (a3.toNat % 128) = 0 then none
         else some (a0.toNat + 2 ^ 8 * a1.toNat + 2 ^ 16 * a2.toNat + 2 ^ 24 * (a3.toNat % 128))) ∧
      t.key = some ⟨k0, k1, k2, k3⟩ ∧ t.status = 0b00#2 ∧ t.seed = s.seed ∧ s.keepsOperands t

/-- HDR2.BAD (R118). -/
def Obligations.Hdr2BadIsAbsent : Prop :=
  ∀ s : State, s.a.length ≠ 2 → s.a.length ≠ 4 → s.a.length ≠ 6 → s.a.length ≠ 8 → s.a.length ≠ 12 →
    ∃ t, exec .hdr2Bad s = .next t ∧ t.extLen = none ∧ t.key = none ∧ t.status = 0b01#2 ∧
      t.seed = s.seed ∧ s.keepsOperands t

/-- HDR2, the whole operation, runs on every buffer and does what the form its length selects does (R111, R77). -/
def Obligations.Hdr2IsItsSelectedForm : Prop :=
  ∀ (s : State) (i : Instr), decode 0x01#8 s.a.length = .ok i →
    exec i s = exec .hdr2 s ∧
    ∃ t, exec .hdr2 s = .next t ∧ t.seed = s.seed ∧ s.keepsOperands t ∧
      t.status = (if t.extLen.isNone && t.key.isNone then 0b01#2 else 0b00#2)

/-- The range of HDR2's length output (R121, R117). -/
def Obligations.ExtendedLengthRange : Prop :=
  ∀ (s t : State) (l : BitVec 31),
    ((exec .hdr2L16 s = .next t ∨ exec .hdr2L16K s = .next t) → t.extLen = some l →
      1 ≤ l.toNat ∧ l.toNat ≤ 65535) ∧
    ((exec .hdr2L31 s = .next t ∨ exec .hdr2L31K s = .next t) → t.extLen = some l →
      1 ≤ l.toNat ∧ l.toNat ≤ 2147483647) ∧
    (exec .hdr2 s = .next t → t.extLen ≠ some 0#31)

/-! ### XMASK -/

/-- XMASK (R131, R132): with a 4-byte key and a non-empty payload, output byte `i` is payload byte `i` XORed with
key byte `i mod 4`; with anything else the one absent result, whichever the cause (R136), and no buffer changed (decision D29). In
the in-place form, and only there, the payload buffer then holds the output (R23, R131). -/
def Obligations.XmaskAppliesTheRollingKey : Prop :=
  (∀ n : Nat, decode 0x02#8 n = .ok .xmask) ∧
  (∀ s : State, s.k.length = 4 → s.a ≠ [] →
    ∃ t, exec .xmask s = .next t ∧ t.o.length = s.a.length ∧
      (∀ i, i < s.a.length → t.o.getD i 0#8 = s.a.getD i 0#8 ^^^ s.k.getD (i % 4) 0#8) ∧
      t.payValid = true ∧ t.status = 0b00#2 ∧ t.seed = s.seed ∧
      s.keepsOperands { t with a := s.a } ∧ t.a = (if config.xmaskInPlace then t.o else s.a)) ∧
  (∀ s : State, (s.k.length ≠ 4 ∨ s.a = []) →
    ∃ t, exec .xmask s = .next t ∧ t.payValid = false ∧ t.status = 0b01#2 ∧ t.o = [] ∧ t.seed = s.seed ∧
      s.keepsOperands t)

/-- Masking twice with one key gives the payload back (R133). -/
def Obligations.XmaskIsItsOwnInverse : Prop :=
  ∀ s : State, s.k.length = 4 → 1 ≤ s.a.length →
    ∃ t u, exec .xmask s = .next t ∧ exec .xmask { s with a := t.o } = .next u ∧ u.o = s.a

/-- The corner cases of the key (R134). -/
def Obligations.XmaskKeyCornerCases : Prop :=
  (∀ s : State, s.k = [0x00#8, 0x00#8, 0x00#8, 0x00#8] → s.a ≠ [] →
    ∃ t, exec .xmask s = .next t ∧ t.o = s.a ∧ t.payValid = true) ∧
  (∀ s : State, s.k = [0xFF#8, 0xFF#8, 0xFF#8, 0xFF#8] → s.a ≠ [] →
    ∃ t, exec .xmask s = .next t ∧ t.o = s.a.map (fun b => ~~~b) ∧ t.payValid = true) ∧
  (∀ s : State, s.k.length ≠ 4 → ∃ t, exec .xmask s = .next t ∧ t.payValid = false ∧ t.status = 0b01#2)

/-- The chunked masker gives XMASK's output, whatever multiple of 4 its chunk width is (R137). -/
def Obligations.WideMaskEqualsXmask : Prop :=
  ∀ (s : State) (w : Nat) (key : MaskKey), 0 < w → w % 4 = 0 → s.k = keyBytes key → s.a ≠ [] →
    ∃ t, exec .xmask s = .next t ∧ t.o = wideMask w key (s.a.length / w) s.a

/-- A payload masked in two pieces gives the output of one transaction when the second piece's key is rotated by
the length of the first (R209). -/
def Obligations.SplitPayloadWithRotatedKey : Prop :=
  ∀ (s : State) (k a1 a2 : Buffer), k.length = 4 → a1 ≠ [] → a2 ≠ [] →
    ∃ t t1 t2, exec .xmask { s with k := k, a := a1 ++ a2 } = .next t ∧
      exec .xmask { s with k := k, a := a1 } = .next t1 ∧
      exec .xmask { s with
        k := [k.getD (a1.length % 4) 0#8, k.getD ((a1.length + 1) % 4) 0#8,
              k.getD ((a1.length + 2) % 4) 0#8, k.getD ((a1.length + 3) % 4) 0#8],
        a := a2 } = .next t2 ∧
      t.o = t1.o ++ t2.o

/-! ### BUILD -/

/-- BUILD.S (R143); when SEED advances is the spec's decision D18 (R150, R154). -/
def Obligations.BuildSEmitsShortFrame : Prop :=
  ∀ (s : State) (m : Bool), s.a.length ≤ 125 →
    ∃ t, exec (.buildS m) s = .next t ∧
      t.o = [s.b0, BitVec.ofNat 8 ((if m then 128 else 0) + s.a.length)] ++ keyAndPayload m s.seed s.a ∧
      t.seed = seedAfter m s.seed ∧ t.status = 0b00#2 ∧ t.errArgs = false ∧ s.keepsOperands t

/-- BUILD.M (R144); when SEED advances is the spec's decision D18 (R150, R154). -/
def Obligations.BuildMEmitsBigEndianLength : Prop :=
  ∀ (s : State) (m : Bool), 126 ≤ s.a.length → s.a.length ≤ 65534 →
    ∃ t, exec (.buildM m) s = .next t ∧
      t.o = [s.b0, BitVec.ofNat 8 ((if m then 128 else 0) + 126),
             BitVec.ofNat 8 (s.a.length / 256), BitVec.ofNat 8 (s.a.length % 256)] ++
            keyAndPayload m s.seed s.a ∧
      t.seed = seedAfter m s.seed ∧ t.status = 0b00#2 ∧ t.errArgs = false ∧ s.keepsOperands t

/-- BUILD.L (R145, R147): the 6-byte field holds the length modulo 2^31, and the whole payload follows. Keeping
that layout, its length modulo 2^31 and when SEED advances are the spec's decisions D5, D28 and D18. -/
def Obligations.BuildLEmitsSixByteLength : Prop :=
  ∀ (s : State) (m : Bool), 65535 ≤ s.a.length →
    ∃ t, exec (.buildL m) s = .next t ∧
      t.o = [s.b0, BitVec.ofNat 8 ((if m then 128 else 0) + 127),
             BitVec.ofNat 8 (s.a.length % 2 ^ 31 / 2 ^ 24), BitVec.ofNat 8 (s.a.length % 2 ^ 31 / 2 ^ 16 % 256),
             BitVec.ofNat 8 (s.a.length % 2 ^ 31 / 2 ^ 8 % 256), BitVec.ofNat 8 (s.a.length % 2 ^ 31 % 256),
             0x00#8, 0x00#8] ++ keyAndPayload m s.seed s.a ∧
      t.seed = seedAfter m s.seed ∧ t.status = 0b00#2 ∧ t.errArgs = false ∧ s.keepsOperands t

/-- BUILD.ERR, its three rows (R142): the invalid-arguments result, no byte, SEED and the buffers unchanged.
The present bits and the check's coming first are the spec's decisions D9 and D18. -/
def Obligations.BuildErrChangesNothing : Prop :=
  ∀ (s : State) (x y z : Bool) (i : Instr),
    (i = .buildErrMk x y z ∨ i = .buildErrB0 x y z ∨ i = .buildErrPl x y z) →
    ∃ t, exec i s = .next t ∧ t.errArgs = true ∧ t.status = 0b10#2 ∧ t.o = [] ∧ t.seed = s.seed ∧
      s.keepsOperands t

/-- BUILD, the whole operation (R141): with all arguments present the seven steps, in their order; with one
missing the invalid-arguments result (decisions D5, D9, D18). -/
def Obligations.BuildFollowsTheSevenSteps : Prop :=
  (∀ (s : State) (m : Bool),
    ∃ t, exec (.build true true true m) s = .next t ∧
      t.o = [s.b0] ++
        [(if m then 0x80#8 else 0x00#8) |||
          BitVec.ofNat 8 (if s.a.length ≤ 125 then s.a.length else if s.a.length < 65535 then 126 else 127)] ++
        (if s.a.length ≤ 125 then []
         else if s.a.length < 65535 then be16 s.a.length
         else be32 (s.a.length % 2 ^ 31) ++ [0x00#8, 0x00#8]) ++
        keyAndPayload m s.seed s.a ∧
      t.seed = seedAfter m s.seed ∧ t.status = 0b00#2 ∧ t.errArgs = false ∧ s.keepsOperands t) ∧
  (∀ (s : State) (k b p m : Bool), (k = false ∨ b = false ∨ p = false) →
    ∃ t, exec (.build k b p m) s = .next t ∧ t.errArgs = true ∧ t.status = 0b10#2 ∧ t.o = [] ∧
      t.seed = s.seed ∧ s.keepsOperands t)

/-- BUILD, the whole operation, does what the form that its present bits and a_len select does (R77). -/
def Obligations.BuildIsItsSelectedForm : Prop :=
  ∀ (s : State) (k b p m : Bool) (i : Instr), decode (buildWord k b p m) s.a.length = .ok i →
    exec i s = exec (.build k b p m) s

/-- The output length of BUILD, and that it depends on L and mk alone (R148). -/
def Obligations.BuildOutputLength : Prop :=
  ∀ (s : State) (k b p m : Bool),
    ∃ t, exec (.build k b p m) s = .next t ∧
      t.o.length =
        (if k && b && p then
          2 + (if s.a.length ≤ 125 then 0 else if s.a.length ≤ 65534 then 2 else 6) + (if m then 4 else 0) + s.a.length
         else 0)

/-- BUILD with an empty payload and the mask flag set (R153, the spec's decision D19): header and key, 6 bytes, and
SEED is updated. -/
def Obligations.EmptyMaskedFrameIsHeaderAndKey : Prop :=
  ∀ s : State, s.a = [] →
    ∃ t, exec (.buildS true) s = .next t ∧
      t.o = [s.b0, 0x80#8] ++ keyBytes (config.keyOfSeed ((s.seed ^^^ config.seedXorConst) * 31#32)) ∧
      t.o.length = 6 ∧ t.seed = (s.seed ^^^ config.seedXorConst) * 31#32

/-- The first two bytes of every frame BUILD emits parse back, by HDR1, to B0's FIN bit and opcode, the code of
the length and the mask flag (R105). -/
def Obligations.BuiltHeaderParsesBack : Prop :=
  ∀ (s : State) (m : Bool),
    ∃ t u, exec (.build true true true m) s = .next t ∧ exec .hdr1 { s with a := t.o.take 2 } = .next u ∧
      u.hdr = some ⟨s.b0.getLsbD 7, s.b0.extractLsb' 0 4,
        BitVec.ofNat 7 (if s.a.length ≤ 125 then s.a.length else if s.a.length < 65535 then 126 else 127), m⟩

/-! ### SEED -/

/-- The seed update as numbers (R150, decision D12). -/
def Obligations.SeedUpdateIsXorTimesThirtyOne : Prop :=
  ∀ c seed : Seed, (seedUpdate c seed).toNat = (seed ^^^ c).toNat * 31 % 2 ^ 32

/-- The seed update is a bijection for every constant (R156). -/
def Obligations.SeedUpdateIsBijective : Prop :=
  ∀ c : Seed, Function.Bijective (seedUpdate c)

/-- Over all instructions: SEED is written by a BUILD that returns a frame with mk = 1, once, and by nothing else
(R154, R20; decision D18). -/
def Obligations.OnlyMaskedBuildWritesSeed : Prop :=
  ∀ (i : Instr) (s t : State), exec i s = .next t →
    t.seed = (if drawsKey i then (s.seed ^^^ config.seedXorConst) * 31#32 else s.seed)

/-- Every instruction but a masked BUILD neither reads nor writes SEED: from two states that differ in SEED alone
it ends in two states that differ in SEED alone (R20). -/
def Obligations.SeedDoesNotAffectOtherOperations : Prop :=
  ∀ (i : Instr) (s t : State) (v : Seed), drawsKey i = false → exec i s = .next t →
    exec i { s with seed := v } = .next { t with seed := v }

/-- The seed and the key of a masked frame depend on how many masked frames were built before it, whatever other
transactions came between (R154): after any commands `cs`, a masked BUILD leaves SEED updated once for itself and
once for each masked BUILD in `cs`, and its key field is KEY_OF_SEED of that seed. -/
def Obligations.KeyDependsOnCountOfMaskedFrames : Prop :=
  ∀ (s : State) (cs : List Command) (c : Command), (∀ d ∈ cs, d.legal = true) → c.cmd = 0x3F#8 →
    s.pending = (cs ++ [c]).map Request.command →
    ∃ t : State, Host.Core.run Sys2Proof.core (cs.length + 1) s = .next t ∧
      t.seed = (fun v : Seed => (v ^^^ config.seedXorConst) * 31#32)^[
        cs.countP (fun d => d.cmd == 0x3F#8) + 1] s.seed ∧
      (t.o.drop (2 + lengthFieldSize c.a.length)).take 4 = keyBytes (config.keyOfSeed t.seed)

/-! ### The caller's flows -/

/-- The dispatch table (R72, R172). -/
def Obligations.DispatchTable : Prop :=
  (∀ code : BitVec 7, code.toNat ≤ 125 → dispatchSize code false = 0 ∧ dispatchSize code true = 4) ∧
  dispatchSize 126#7 false = 2 ∧ dispatchSize 126#7 true = 6 ∧
  dispatchSize 127#7 false = 8 ∧ dispatchSize 127#7 true = 12

/-- The resolved payload length (R173; an absent one meaning 0 is the spec's decision D24). -/
def Obligations.ResolvedLengthCases : Prop :=
  (∀ (code : BitVec 7) (xl : Option (BitVec 31)), code.toNat ≤ 125 → resolvedLength code xl = code.toNat) ∧
  (∀ (code : BitVec 7) (l : BitVec 31), 126 ≤ code.toNat → resolvedLength code (some l) = l.toNat) ∧
  (∀ code : BitVec 7, 126 ≤ code.toNat → resolvedLength code none = 0)

/-- What round-trips (R176 (a)): a frame built from at most 125 bytes, masked or not, decodes to B0's FIN bit and
opcode and to the payload, and exactly the frame is consumed; decoding leaves SEED as the BUILD left it. -/
def Obligations.ShortFramesRoundTrip : Prop :=
  ∀ (s : State) (payload : Buffer) (b0 : Byte) (m : Bool), payload.length ≤ 125 →
    ∃ t u, encodeFrame payload b0 m s = .next t ∧
      decodeFrame t.o t =
        .next (.frame (b0.getLsbD 7) (b0.extractLsb' 0 4) payload t.o.length, u) ∧
      t.seed = seedAfter m s.seed ∧ u.seed = t.seed ∧ u.pending = s.pending

/-- What does not (R176 (b)): HDR2, handed the extension of a frame of class M, returns the length with its two
bytes swapped, and the right key. -/
def Obligations.MediumFramesDecodeToSwappedLength : Prop :=
  ∀ (s : State) (payload : Buffer) (b0 : Byte) (m : Bool), 126 ≤ payload.length → payload.length ≤ 65534 →
    ∃ t u, encodeFrame payload b0 m s = .next t ∧
      transact (Command.hdr2 (memRead t.o 2 (dispatchSize 126#7 m))) t = .next u ∧
      u.extLen.map BitVec.toNat = some (256 * (payload.length % 256) + payload.length / 256) ∧
      u.key.map keyBytes = (if m then some (keyAfter s.seed) else none)

/-- What does not (R176 (c)): HDR2, handed 8 or 12 bytes of a frame of class L, returns the low bytes of the
length in the opposite order with bit 7 of the last dropped (absent if that is 0), and takes as its key bytes 10 to
13 of the frame: the last 2 key bytes and the first 2 masked payload bytes. -/
def Obligations.LongFramesDecodeToReversedLength : Prop :=
  ∀ (s : State) (payload : Buffer) (b0 : Byte) (m : Bool), 65535 ≤ payload.length →
    ∃ t u, encodeFrame payload b0 m s = .next t ∧
      transact (Command.hdr2 (memRead t.o 2 (dispatchSize 127#7 m))) t = .next u ∧
      resolvedLength 127#7 u.extLen =
        payload.length % 2 ^ 31 / 2 ^ 24 + 2 ^ 8 * (payload.length / 2 ^ 16 % 256)
          + 2 ^ 16 * (payload.length / 2 ^ 8 % 256) + 2 ^ 24 * (payload.length % 128) ∧
      u.key.map keyBytes =
        (if m then some ((keyAfter s.seed).drop 2 ++ (maskedBy (keyAfter s.seed) payload).take 2) else none)

/-! ### The machine as a whole -/

/-- Every step keeps this: while a command's result stands, the command spelled an operation, and the result record, O
and the flags agree with it (R25, R30, R31, R117, R120, R148; decisions D4, D11, D29, D30). Two clauses are the model's:
that O is empty after a failed HDR1 or HDR2 (log entry 19, DEDUCED), and when a result stands (log entry 22). -/
def Obligations.StepKeepsRecordAgreement : Prop :=
  ∀ s t : State, s.recordAgrees → step s = .next t → t.recordAgrees

/-- The state after reset has that agreement, because no result stands there: there has been no transaction (the
model's own field `served`, log entry 22). -/
def Obligations.ResetRecordAgrees : Prop := State.reset.served = none ∧ State.reset.recordAgrees

/-- A transaction that fails, or that returns nothing, has had no effect on SEED, on the operand buffers or on what is
pending (R181, R182, R189; decision D29). CMD and B0 are undefined at the return (R26; log entry 22). -/
def Obligations.FailuresArePrecise : Prop :=
  ∀ (i : Instr) (s t : State), exec i s = .next t → t.status ≠ 0b00#2 →
    t.seed = s.seed ∧ s.keepsOperands t

/-- A failed operation leaves O empty (R30 and R187, decision D29): HDR1 and HDR2 on a length not admitted, XMASK
on a bad key or an empty payload, BUILD with an argument missing. -/
def Obligations.FailuresEmitNothing : Prop :=
  ∀ s : State,
    (s.a.length ≠ 2 → ∃ t, exec .hdr1 s = .next t ∧ t.o = []) ∧
    (s.a.length ∉ [2, 4, 6, 8, 12] →
      (∃ t, exec .hdr2 s = .next t ∧ t.o = []) ∧ ∃ t, exec .hdr2Bad s = .next t ∧ t.o = []) ∧
    ((s.k.length ≠ 4 ∨ s.a = []) → ∃ t, exec .xmask s = .next t ∧ t.o = []) ∧
    (∀ k b p m : Bool, (k && b && p) = false → ∃ t, exec (.build k b p m) s = .next t ∧ t.o = [])

/-- Every request whose word spells an operation is served: as many steps as there are requests end, without a
refusal, with nothing pending (R216). -/
def Obligations.EveryLegalRequestIsServed : Prop :=
  ∀ s : State, s.servable = true →
    ∃ t : State, Host.Core.run Sys2Proof.core s.pending.length s = .next t ∧ t.pending = []

/-- The two WIRE rows are layouts and no commands: no command word decodes to one, and run as a command each is
refused by its own name (R77; log entry 8, DESIGN CHOICE). -/
def Obligations.WireRowsAreNoCommands : Prop :=
  (∀ (s : State) (f : Bool) (r : BitVec 3) (o : BitVec 4), exec (.wireByte0 f r o) s = .refused .notACommand) ∧
  (∀ (s : State) (m : Bool) (l : BitVec 7), exec (.wireByte1 m l) s = .refused .notACommand) ∧
  (∀ (w : Byte) (n : Nat) (i : Instr), decode w n = .ok i → i.kind ≠ .wire)

/-- A form row run on an A whose length does not select it is refused by its own name (log entry 9, DESIGN
CHOICE); the decoder never selects such a form. -/
def Obligations.UnselectedFormsAreRefused : Prop :=
  ∀ (s : State) (i : Instr), i.admits s.a.length = false → exec i s = .refused .formNotSelected
end

