-- ==== Sys2Proof/Laws/State.lean ====
section
/-! SUPPORT. One lemma per field of State and per named operation, true by rfl, so that no later proof unfolds a record update. -/

namespace Sys2Proof.Machine

@[simp] theorem State.takeCommand_seed (c : Command) (rest : List Request) (s : State) : (s.takeCommand c rest).seed = s.seed := rfl
@[simp] theorem State.takeCommand_cmd (c : Command) (rest : List Request) (s : State) : (s.takeCommand c rest).cmd = c.cmd := rfl
@[simp] theorem State.takeCommand_b0 (c : Command) (rest : List Request) (s : State) : (s.takeCommand c rest).b0 = c.b0 := rfl
@[simp] theorem State.takeCommand_a (c : Command) (rest : List Request) (s : State) : (s.takeCommand c rest).a = c.a := rfl
@[simp] theorem State.takeCommand_k (c : Command) (rest : List Request) (s : State) : (s.takeCommand c rest).k = c.k := rfl
@[simp] theorem State.takeCommand_o (c : Command) (rest : List Request) (s : State) : (s.takeCommand c rest).o = s.o := rfl
@[simp] theorem State.takeCommand_status (c : Command) (rest : List Request) (s : State) : (s.takeCommand c rest).status = s.status := rfl
@[simp] theorem State.takeCommand_hdr (c : Command) (rest : List Request) (s : State) : (s.takeCommand c rest).hdr = s.hdr := rfl
@[simp] theorem State.takeCommand_extLen (c : Command) (rest : List Request) (s : State) : (s.takeCommand c rest).extLen = s.extLen := rfl
@[simp] theorem State.takeCommand_key (c : Command) (rest : List Request) (s : State) : (s.takeCommand c rest).key = s.key := rfl
@[simp] theorem State.takeCommand_payValid (c : Command) (rest : List Request) (s : State) : (s.takeCommand c rest).payValid = s.payValid := rfl
@[simp] theorem State.takeCommand_errArgs (c : Command) (rest : List Request) (s : State) : (s.takeCommand c rest).errArgs = s.errArgs := rfl
@[simp] theorem State.takeCommand_kp (c : Command) (rest : List Request) (s : State) : (s.takeCommand c rest).kp = s.kp := rfl
@[simp] theorem State.takeCommand_ph (c : Command) (rest : List Request) (s : State) : (s.takeCommand c rest).ph = s.ph := rfl
@[simp] theorem State.takeCommand_pending (c : Command) (rest : List Request) (s : State) : (s.takeCommand c rest).pending = rest := rfl
@[simp] theorem State.takeCommand_served (c : Command) (rest : List Request) (s : State) : (s.takeCommand c rest).served = some c := rfl
@[simp] theorem State.takeCommand_draws (c : Command) (rest : List Request) (s : State) : (s.takeCommand c rest).draws = s.draws := rfl

@[simp] theorem State.lapse_seed (s : State) : s.lapse.seed = s.seed := rfl
@[simp] theorem State.lapse_cmd (s : State) : s.lapse.cmd = Config.undefinedCmd s.draws := rfl
@[simp] theorem State.lapse_b0 (s : State) : s.lapse.b0 = Config.undefinedB0 s.draws := rfl
@[simp] theorem State.lapse_a (s : State) : s.lapse.a = Config.undefinedA s.draws := rfl
@[simp] theorem State.lapse_k (s : State) : s.lapse.k = Config.undefinedK s.draws := rfl
@[simp] theorem State.lapse_o (s : State) : s.lapse.o = Config.undefinedO s.draws := rfl
@[simp] theorem State.lapse_status (s : State) : s.lapse.status = Config.undefinedStatus s.draws := rfl
@[simp] theorem State.lapse_hdr (s : State) : s.lapse.hdr = Config.undefinedHdr s.draws := rfl
@[simp] theorem State.lapse_extLen (s : State) : s.lapse.extLen = Config.undefinedExtLen s.draws := rfl
@[simp] theorem State.lapse_key (s : State) : s.lapse.key = Config.undefinedKey s.draws := rfl
@[simp] theorem State.lapse_payValid (s : State) : s.lapse.payValid = Config.undefinedPayValid s.draws := rfl
@[simp] theorem State.lapse_errArgs (s : State) : s.lapse.errArgs = Config.undefinedErrArgs s.draws := rfl
@[simp] theorem State.lapse_kp (s : State) : s.lapse.kp = Config.undefinedKp s.draws := rfl
@[simp] theorem State.lapse_ph (s : State) : s.lapse.ph = Config.undefinedPh s.draws := rfl
@[simp] theorem State.lapse_pending (s : State) : s.lapse.pending = s.pending := rfl
@[simp] theorem State.lapse_served (s : State) : s.lapse.served = none := rfl
@[simp] theorem State.lapse_draws (s : State) : s.lapse.draws = s.draws + 1 := rfl

@[simp] theorem State.issue_seed (c : Command) (s : State) : (s.issue c).seed = s.seed := rfl
@[simp] theorem State.issue_cmd (c : Command) (s : State) : (s.issue c).cmd = s.cmd := rfl
@[simp] theorem State.issue_b0 (c : Command) (s : State) : (s.issue c).b0 = s.b0 := rfl
@[simp] theorem State.issue_a (c : Command) (s : State) : (s.issue c).a = s.a := rfl
@[simp] theorem State.issue_k (c : Command) (s : State) : (s.issue c).k = s.k := rfl
@[simp] theorem State.issue_o (c : Command) (s : State) : (s.issue c).o = s.o := rfl
@[simp] theorem State.issue_status (c : Command) (s : State) : (s.issue c).status = s.status := rfl
@[simp] theorem State.issue_hdr (c : Command) (s : State) : (s.issue c).hdr = s.hdr := rfl
@[simp] theorem State.issue_extLen (c : Command) (s : State) : (s.issue c).extLen = s.extLen := rfl
@[simp] theorem State.issue_key (c : Command) (s : State) : (s.issue c).key = s.key := rfl
@[simp] theorem State.issue_payValid (c : Command) (s : State) : (s.issue c).payValid = s.payValid := rfl
@[simp] theorem State.issue_errArgs (c : Command) (s : State) : (s.issue c).errArgs = s.errArgs := rfl
@[simp] theorem State.issue_kp (c : Command) (s : State) : (s.issue c).kp = s.kp := rfl
@[simp] theorem State.issue_ph (c : Command) (s : State) : (s.issue c).ph = s.ph := rfl
@[simp] theorem State.issue_pending (c : Command) (s : State) : (s.issue c).pending = .command c :: s.pending := rfl
@[simp] theorem State.issue_served (c : Command) (s : State) : (s.issue c).served = s.served := rfl
@[simp] theorem State.issue_draws (c : Command) (s : State) : (s.issue c).draws = s.draws := rfl

@[simp] theorem State.begin_seed (s : State) : s.begin.seed = s.seed := rfl
@[simp] theorem State.begin_cmd (s : State) : s.begin.cmd = s.cmd := rfl
@[simp] theorem State.begin_b0 (s : State) : s.begin.b0 = s.b0 := rfl
@[simp] theorem State.begin_a (s : State) : s.begin.a = s.a := rfl
@[simp] theorem State.begin_k (s : State) : s.begin.k = s.k := rfl
@[simp] theorem State.begin_o (s : State) : s.begin.o = [] := rfl
@[simp] theorem State.begin_status (s : State) : s.begin.status = s.status := rfl
@[simp] theorem State.begin_hdr (s : State) : s.begin.hdr = Config.undefinedHdr s.draws := rfl
@[simp] theorem State.begin_extLen (s : State) : s.begin.extLen = Config.undefinedExtLen s.draws := rfl
@[simp] theorem State.begin_key (s : State) : s.begin.key = Config.undefinedKey s.draws := rfl
@[simp] theorem State.begin_payValid (s : State) : s.begin.payValid = Config.undefinedPayValid s.draws := rfl
@[simp] theorem State.begin_errArgs (s : State) : s.begin.errArgs = Config.undefinedErrArgs s.draws := rfl
@[simp] theorem State.begin_kp (s : State) : s.begin.kp = 0#2 := rfl
@[simp] theorem State.begin_ph (s : State) : s.begin.ph = .hdr := rfl
@[simp] theorem State.begin_pending (s : State) : s.begin.pending = s.pending := rfl
@[simp] theorem State.begin_served (s : State) : s.begin.served = s.served := rfl
@[simp] theorem State.begin_draws (s : State) : s.begin.draws = s.draws + 1 := rfl

@[simp] theorem State.finish_seed (st : BitVec 2) (s : State) : (s.finish st).seed = s.seed := rfl
@[simp] theorem State.finish_cmd (st : BitVec 2) (s : State) : (s.finish st).cmd = Config.undefinedCmd s.draws := rfl
@[simp] theorem State.finish_b0 (st : BitVec 2) (s : State) : (s.finish st).b0 = Config.undefinedB0 s.draws := rfl
@[simp] theorem State.finish_a (st : BitVec 2) (s : State) : (s.finish st).a = s.a := rfl
@[simp] theorem State.finish_k (st : BitVec 2) (s : State) : (s.finish st).k = s.k := rfl
@[simp] theorem State.finish_o (st : BitVec 2) (s : State) : (s.finish st).o = s.o := rfl
@[simp] theorem State.finish_status (st : BitVec 2) (s : State) : (s.finish st).status = st := rfl
@[simp] theorem State.finish_hdr (st : BitVec 2) (s : State) : (s.finish st).hdr = s.hdr := rfl
@[simp] theorem State.finish_extLen (st : BitVec 2) (s : State) : (s.finish st).extLen = s.extLen := rfl
@[simp] theorem State.finish_key (st : BitVec 2) (s : State) : (s.finish st).key = s.key := rfl
@[simp] theorem State.finish_payValid (st : BitVec 2) (s : State) : (s.finish st).payValid = s.payValid := rfl
@[simp] theorem State.finish_errArgs (st : BitVec 2) (s : State) : (s.finish st).errArgs = s.errArgs := rfl
@[simp] theorem State.finish_kp (st : BitVec 2) (s : State) : (s.finish st).kp = Config.undefinedKp s.draws := rfl
@[simp] theorem State.finish_ph (st : BitVec 2) (s : State) : (s.finish st).ph = Config.undefinedPh s.draws := rfl
@[simp] theorem State.finish_pending (st : BitVec 2) (s : State) : (s.finish st).pending = s.pending := rfl
@[simp] theorem State.finish_served (st : BitVec 2) (s : State) : (s.finish st).served = s.served := rfl
@[simp] theorem State.finish_draws (st : BitVec 2) (s : State) : (s.finish st).draws = s.draws + 1 := rfl

@[simp] theorem State.noOutput_seed (s : State) : s.noOutput.seed = s.seed := rfl
@[simp] theorem State.noOutput_cmd (s : State) : s.noOutput.cmd = s.cmd := rfl
@[simp] theorem State.noOutput_b0 (s : State) : s.noOutput.b0 = s.b0 := rfl
@[simp] theorem State.noOutput_a (s : State) : s.noOutput.a = s.a := rfl
@[simp] theorem State.noOutput_k (s : State) : s.noOutput.k = s.k := rfl
@[simp] theorem State.noOutput_o (s : State) : s.noOutput.o = Config.undefinedO s.draws := rfl
@[simp] theorem State.noOutput_status (s : State) : s.noOutput.status = s.status := rfl
@[simp] theorem State.noOutput_hdr (s : State) : s.noOutput.hdr = s.hdr := rfl
@[simp] theorem State.noOutput_extLen (s : State) : s.noOutput.extLen = s.extLen := rfl
@[simp] theorem State.noOutput_key (s : State) : s.noOutput.key = s.key := rfl
@[simp] theorem State.noOutput_payValid (s : State) : s.noOutput.payValid = s.payValid := rfl
@[simp] theorem State.noOutput_errArgs (s : State) : s.noOutput.errArgs = s.errArgs := rfl
@[simp] theorem State.noOutput_kp (s : State) : s.noOutput.kp = s.kp := rfl
@[simp] theorem State.noOutput_ph (s : State) : s.noOutput.ph = s.ph := rfl
@[simp] theorem State.noOutput_pending (s : State) : s.noOutput.pending = s.pending := rfl
@[simp] theorem State.noOutput_served (s : State) : s.noOutput.served = s.served := rfl
@[simp] theorem State.noOutput_draws (s : State) : s.noOutput.draws = s.draws := rfl

@[simp] theorem State.raiseAbsent_seed (s : State) : s.raiseAbsent.seed = s.seed := rfl
@[simp] theorem State.raiseAbsent_cmd (s : State) : s.raiseAbsent.cmd = Config.undefinedCmd s.draws := rfl
@[simp] theorem State.raiseAbsent_b0 (s : State) : s.raiseAbsent.b0 = Config.undefinedB0 s.draws := rfl
@[simp] theorem State.raiseAbsent_a (s : State) : s.raiseAbsent.a = s.a := rfl
@[simp] theorem State.raiseAbsent_k (s : State) : s.raiseAbsent.k = s.k := rfl
@[simp] theorem State.raiseAbsent_o (s : State) : s.raiseAbsent.o = [] := rfl
@[simp] theorem State.raiseAbsent_status (s : State) : s.raiseAbsent.status = statusAbsent := rfl
@[simp] theorem State.raiseAbsent_hdr (s : State) : s.raiseAbsent.hdr = s.hdr := rfl
@[simp] theorem State.raiseAbsent_extLen (s : State) : s.raiseAbsent.extLen = s.extLen := rfl
@[simp] theorem State.raiseAbsent_key (s : State) : s.raiseAbsent.key = s.key := rfl
@[simp] theorem State.raiseAbsent_payValid (s : State) : s.raiseAbsent.payValid = s.payValid := rfl
@[simp] theorem State.raiseAbsent_errArgs (s : State) : s.raiseAbsent.errArgs = s.errArgs := rfl
@[simp] theorem State.raiseAbsent_kp (s : State) : s.raiseAbsent.kp = Config.undefinedKp s.draws := rfl
@[simp] theorem State.raiseAbsent_ph (s : State) : s.raiseAbsent.ph = Config.undefinedPh s.draws := rfl
@[simp] theorem State.raiseAbsent_pending (s : State) : s.raiseAbsent.pending = s.pending := rfl
@[simp] theorem State.raiseAbsent_served (s : State) : s.raiseAbsent.served = s.served := rfl
@[simp] theorem State.raiseAbsent_draws (s : State) : s.raiseAbsent.draws = s.draws + 1 := rfl

@[simp] theorem State.raiseInvalidArguments_seed (s : State) : s.raiseInvalidArguments.seed = s.seed := rfl
@[simp] theorem State.raiseInvalidArguments_cmd (s : State) : s.raiseInvalidArguments.cmd = Config.undefinedCmd s.draws := rfl
@[simp] theorem State.raiseInvalidArguments_b0 (s : State) : s.raiseInvalidArguments.b0 = Config.undefinedB0 s.draws := rfl
@[simp] theorem State.raiseInvalidArguments_a (s : State) : s.raiseInvalidArguments.a = s.a := rfl
@[simp] theorem State.raiseInvalidArguments_k (s : State) : s.raiseInvalidArguments.k = s.k := rfl
@[simp] theorem State.raiseInvalidArguments_o (s : State) : s.raiseInvalidArguments.o = [] := rfl
@[simp] theorem State.raiseInvalidArguments_status (s : State) : s.raiseInvalidArguments.status = statusInvalidArgs := rfl
@[simp] theorem State.raiseInvalidArguments_hdr (s : State) : s.raiseInvalidArguments.hdr = s.hdr := rfl
@[simp] theorem State.raiseInvalidArguments_extLen (s : State) : s.raiseInvalidArguments.extLen = s.extLen := rfl
@[simp] theorem State.raiseInvalidArguments_key (s : State) : s.raiseInvalidArguments.key = s.key := rfl
@[simp] theorem State.raiseInvalidArguments_payValid (s : State) : s.raiseInvalidArguments.payValid = s.payValid := rfl
@[simp] theorem State.raiseInvalidArguments_errArgs (s : State) : s.raiseInvalidArguments.errArgs = true := rfl
@[simp] theorem State.raiseInvalidArguments_kp (s : State) : s.raiseInvalidArguments.kp = Config.undefinedKp s.draws := rfl
@[simp] theorem State.raiseInvalidArguments_ph (s : State) : s.raiseInvalidArguments.ph = Config.undefinedPh s.draws := rfl
@[simp] theorem State.raiseInvalidArguments_pending (s : State) : s.raiseInvalidArguments.pending = s.pending := rfl
@[simp] theorem State.raiseInvalidArguments_served (s : State) : s.raiseInvalidArguments.served = s.served := rfl
@[simp] theorem State.raiseInvalidArguments_draws (s : State) : s.raiseInvalidArguments.draws = s.draws + 1 := rfl

@[simp] theorem State.emit_seed (v : Buffer) (s : State) : (s.emit v).seed = s.seed := rfl
@[simp] theorem State.emit_cmd (v : Buffer) (s : State) : (s.emit v).cmd = s.cmd := rfl
@[simp] theorem State.emit_b0 (v : Buffer) (s : State) : (s.emit v).b0 = s.b0 := rfl
@[simp] theorem State.emit_a (v : Buffer) (s : State) : (s.emit v).a = s.a := rfl
@[simp] theorem State.emit_k (v : Buffer) (s : State) : (s.emit v).k = s.k := rfl
@[simp] theorem State.emit_o (v : Buffer) (s : State) : (s.emit v).o = s.o ++ v := rfl
@[simp] theorem State.emit_status (v : Buffer) (s : State) : (s.emit v).status = s.status := rfl
@[simp] theorem State.emit_hdr (v : Buffer) (s : State) : (s.emit v).hdr = s.hdr := rfl
@[simp] theorem State.emit_extLen (v : Buffer) (s : State) : (s.emit v).extLen = s.extLen := rfl
@[simp] theorem State.emit_key (v : Buffer) (s : State) : (s.emit v).key = s.key := rfl
@[simp] theorem State.emit_payValid (v : Buffer) (s : State) : (s.emit v).payValid = s.payValid := rfl
@[simp] theorem State.emit_errArgs (v : Buffer) (s : State) : (s.emit v).errArgs = s.errArgs := rfl
@[simp] theorem State.emit_kp (v : Buffer) (s : State) : (s.emit v).kp = s.kp := rfl
@[simp] theorem State.emit_ph (v : Buffer) (s : State) : (s.emit v).ph = s.ph := rfl
@[simp] theorem State.emit_pending (v : Buffer) (s : State) : (s.emit v).pending = s.pending := rfl
@[simp] theorem State.emit_served (v : Buffer) (s : State) : (s.emit v).served = s.served := rfl
@[simp] theorem State.emit_draws (v : Buffer) (s : State) : (s.emit v).draws = s.draws := rfl

@[simp] theorem State.emitMasked_seed (key : MaskKey) (v : Buffer) (s : State) : (s.emitMasked key v).seed = s.seed := rfl
@[simp] theorem State.emitMasked_cmd (key : MaskKey) (v : Buffer) (s : State) : (s.emitMasked key v).cmd = s.cmd := rfl
@[simp] theorem State.emitMasked_b0 (key : MaskKey) (v : Buffer) (s : State) : (s.emitMasked key v).b0 = s.b0 := rfl
@[simp] theorem State.emitMasked_a (key : MaskKey) (v : Buffer) (s : State) : (s.emitMasked key v).a = s.a := rfl
@[simp] theorem State.emitMasked_k (key : MaskKey) (v : Buffer) (s : State) : (s.emitMasked key v).k = s.k := rfl
@[simp] theorem State.emitMasked_o (key : MaskKey) (v : Buffer) (s : State) : (s.emitMasked key v).o = s.o ++ maskFrom s.kp key v := rfl
@[simp] theorem State.emitMasked_status (key : MaskKey) (v : Buffer) (s : State) : (s.emitMasked key v).status = s.status := rfl
@[simp] theorem State.emitMasked_hdr (key : MaskKey) (v : Buffer) (s : State) : (s.emitMasked key v).hdr = s.hdr := rfl
@[simp] theorem State.emitMasked_extLen (key : MaskKey) (v : Buffer) (s : State) : (s.emitMasked key v).extLen = s.extLen := rfl
@[simp] theorem State.emitMasked_key (key : MaskKey) (v : Buffer) (s : State) : (s.emitMasked key v).key = s.key := rfl
@[simp] theorem State.emitMasked_payValid (key : MaskKey) (v : Buffer) (s : State) : (s.emitMasked key v).payValid = s.payValid := rfl
@[simp] theorem State.emitMasked_errArgs (key : MaskKey) (v : Buffer) (s : State) : (s.emitMasked key v).errArgs = s.errArgs := rfl
@[simp] theorem State.emitMasked_kp (key : MaskKey) (v : Buffer) (s : State) : (s.emitMasked key v).kp = s.kp + BitVec.ofNat 2 v.length := rfl
@[simp] theorem State.emitMasked_ph (key : MaskKey) (v : Buffer) (s : State) : (s.emitMasked key v).ph = s.ph := rfl
@[simp] theorem State.emitMasked_pending (key : MaskKey) (v : Buffer) (s : State) : (s.emitMasked key v).pending = s.pending := rfl
@[simp] theorem State.emitMasked_served (key : MaskKey) (v : Buffer) (s : State) : (s.emitMasked key v).served = s.served := rfl
@[simp] theorem State.emitMasked_draws (key : MaskKey) (v : Buffer) (s : State) : (s.emitMasked key v).draws = s.draws := rfl

@[simp] theorem State.enter_seed (p : Phase) (s : State) : (s.enter p).seed = s.seed := rfl
@[simp] theorem State.enter_cmd (p : Phase) (s : State) : (s.enter p).cmd = s.cmd := rfl
@[simp] theorem State.enter_b0 (p : Phase) (s : State) : (s.enter p).b0 = s.b0 := rfl
@[simp] theorem State.enter_a (p : Phase) (s : State) : (s.enter p).a = s.a := rfl
@[simp] theorem State.enter_k (p : Phase) (s : State) : (s.enter p).k = s.k := rfl
@[simp] theorem State.enter_o (p : Phase) (s : State) : (s.enter p).o = s.o := rfl
@[simp] theorem State.enter_status (p : Phase) (s : State) : (s.enter p).status = s.status := rfl
@[simp] theorem State.enter_hdr (p : Phase) (s : State) : (s.enter p).hdr = s.hdr := rfl
@[simp] theorem State.enter_extLen (p : Phase) (s : State) : (s.enter p).extLen = s.extLen := rfl
@[simp] theorem State.enter_key (p : Phase) (s : State) : (s.enter p).key = s.key := rfl
@[simp] theorem State.enter_payValid (p : Phase) (s : State) : (s.enter p).payValid = s.payValid := rfl
@[simp] theorem State.enter_errArgs (p : Phase) (s : State) : (s.enter p).errArgs = s.errArgs := rfl
@[simp] theorem State.enter_kp (p : Phase) (s : State) : (s.enter p).kp = s.kp := rfl
@[simp] theorem State.enter_ph (p : Phase) (s : State) : (s.enter p).ph = p := rfl
@[simp] theorem State.enter_pending (p : Phase) (s : State) : (s.enter p).pending = s.pending := rfl
@[simp] theorem State.enter_served (p : Phase) (s : State) : (s.enter p).served = s.served := rfl
@[simp] theorem State.enter_draws (p : Phase) (s : State) : (s.enter p).draws = s.draws := rfl

@[simp] theorem State.advanceSeed_seed (cfg : Config) (s : State) : (s.advanceSeed cfg).seed = seedUpdate cfg.seedXorConst s.seed := rfl
@[simp] theorem State.advanceSeed_cmd (cfg : Config) (s : State) : (s.advanceSeed cfg).cmd = s.cmd := rfl
@[simp] theorem State.advanceSeed_b0 (cfg : Config) (s : State) : (s.advanceSeed cfg).b0 = s.b0 := rfl
@[simp] theorem State.advanceSeed_a (cfg : Config) (s : State) : (s.advanceSeed cfg).a = s.a := rfl
@[simp] theorem State.advanceSeed_k (cfg : Config) (s : State) : (s.advanceSeed cfg).k = s.k := rfl
@[simp] theorem State.advanceSeed_o (cfg : Config) (s : State) : (s.advanceSeed cfg).o = s.o := rfl
@[simp] theorem State.advanceSeed_status (cfg : Config) (s : State) : (s.advanceSeed cfg).status = s.status := rfl
@[simp] theorem State.advanceSeed_hdr (cfg : Config) (s : State) : (s.advanceSeed cfg).hdr = s.hdr := rfl
@[simp] theorem State.advanceSeed_extLen (cfg : Config) (s : State) : (s.advanceSeed cfg).extLen = s.extLen := rfl
@[simp] theorem State.advanceSeed_key (cfg : Config) (s : State) : (s.advanceSeed cfg).key = s.key := rfl
@[simp] theorem State.advanceSeed_payValid (cfg : Config) (s : State) : (s.advanceSeed cfg).payValid = s.payValid := rfl
@[simp] theorem State.advanceSeed_errArgs (cfg : Config) (s : State) : (s.advanceSeed cfg).errArgs = s.errArgs := rfl
@[simp] theorem State.advanceSeed_kp (cfg : Config) (s : State) : (s.advanceSeed cfg).kp = s.kp := rfl
@[simp] theorem State.advanceSeed_ph (cfg : Config) (s : State) : (s.advanceSeed cfg).ph = s.ph := rfl
@[simp] theorem State.advanceSeed_pending (cfg : Config) (s : State) : (s.advanceSeed cfg).pending = s.pending := rfl
@[simp] theorem State.advanceSeed_served (cfg : Config) (s : State) : (s.advanceSeed cfg).served = s.served := rfl
@[simp] theorem State.advanceSeed_draws (cfg : Config) (s : State) : (s.advanceSeed cfg).draws = s.draws := rfl

@[simp] theorem State.takeReset_seed (rest : List Request) (s : State) : (s.takeReset rest).seed = config.seedReset := rfl
@[simp] theorem State.takeReset_cmd (rest : List Request) (s : State) : (s.takeReset rest).cmd = Config.undefinedCmd s.draws := rfl
@[simp] theorem State.takeReset_b0 (rest : List Request) (s : State) : (s.takeReset rest).b0 = Config.undefinedB0 s.draws := rfl
@[simp] theorem State.takeReset_a (rest : List Request) (s : State) : (s.takeReset rest).a = Config.undefinedA s.draws := rfl
@[simp] theorem State.takeReset_k (rest : List Request) (s : State) : (s.takeReset rest).k = Config.undefinedK s.draws := rfl
@[simp] theorem State.takeReset_o (rest : List Request) (s : State) : (s.takeReset rest).o = Config.undefinedO s.draws := rfl
@[simp] theorem State.takeReset_status (rest : List Request) (s : State) : (s.takeReset rest).status = Config.undefinedStatus s.draws := rfl
@[simp] theorem State.takeReset_hdr (rest : List Request) (s : State) : (s.takeReset rest).hdr = Config.undefinedHdr s.draws := rfl
@[simp] theorem State.takeReset_extLen (rest : List Request) (s : State) : (s.takeReset rest).extLen = Config.undefinedExtLen s.draws := rfl
@[simp] theorem State.takeReset_key (rest : List Request) (s : State) : (s.takeReset rest).key = Config.undefinedKey s.draws := rfl
@[simp] theorem State.takeReset_payValid (rest : List Request) (s : State) : (s.takeReset rest).payValid = Config.undefinedPayValid s.draws := rfl
@[simp] theorem State.takeReset_errArgs (rest : List Request) (s : State) : (s.takeReset rest).errArgs = Config.undefinedErrArgs s.draws := rfl
@[simp] theorem State.takeReset_kp (rest : List Request) (s : State) : (s.takeReset rest).kp = Config.undefinedKp s.draws := rfl
@[simp] theorem State.takeReset_ph (rest : List Request) (s : State) : (s.takeReset rest).ph = Config.undefinedPh s.draws := rfl
@[simp] theorem State.takeReset_pending (rest : List Request) (s : State) : (s.takeReset rest).pending = rest := rfl
@[simp] theorem State.takeReset_served (rest : List Request) (s : State) : (s.takeReset rest).served = none := rfl
@[simp] theorem State.takeReset_draws (rest : List Request) (s : State) : (s.takeReset rest).draws = s.draws + 1 := rfl

end Sys2Proof.Machine
end

