-- ==== Sys2Proof/Laws/Operands.lean ====
section
/-! SUPPORT. What the operand forms compute: lengths of fields, the rolling key, the wide masker, lengths read and written. -/

namespace Sys2Proof.Machine

/-! ### Keys -/

@[simp] theorem keyBytes_length (key : MaskKey) : (keyBytes key).length = 4 := rfl

/-- A key byte is the byte of the key buffer at the index modulo 4. -/
theorem keyByte_eq_getD (key : MaskKey) (j : Nat) : keyByte key j = (keyBytes key).getD (j % 4) 0#8 := by
  have h : j % 4 < 4 := Nat.mod_lt _ (by decide)
  unfold keyByte keyBytes
  generalize j % 4 = r at h ⊢
  match r, h with
  | 0, _ | 1, _ | 2, _ | 3, _ => rfl

/-- Only the index modulo 4 matters to a key byte. -/
theorem keyByte_mod (key : MaskKey) (j : Nat) : keyByte key (j % 4) = keyByte key j := by
  simp [keyByte]

/-- XMASK accepts exactly the 4-byte key buffers, each as the key with those bytes. -/
theorem keyOfBuffer_eq_some {k : Buffer} {key : MaskKey} : keyOfBuffer k = some key ↔ k = keyBytes key := by
  constructor
  · intro h
    unfold keyOfBuffer at h
    split at h
    · cases h; rfl
    · cases h
  · rintro rfl; rfl

@[simp] theorem keyOfBuffer_keyBytes (key : MaskKey) : keyOfBuffer (keyBytes key) = some key := rfl

/-- XMASK rejects exactly the key buffers of another length. -/
theorem keyOfBuffer_eq_none {k : Buffer} : keyOfBuffer k = none ↔ k.length ≠ 4 := by
  unfold keyOfBuffer
  split
  · simp
  · rename_i h
    simp only [true_iff]
    intro hl
    match k, hl with
    | [a, b, c, d], _ => exact h a b c d rfl

/-- A 4-byte buffer is the bytes of a key. -/
theorem exists_keyBytes {k : Buffer} (h : k.length = 4) : ∃ key, k = keyBytes key := by
  match k, h with
  | [a, b, c, d], _ => exact ⟨⟨a, b, c, d⟩, rfl⟩

/-! ### The byte loop of the masker -/

@[simp] theorem maskFrom_nil (kp : BitVec 2) (key : MaskKey) : maskFrom kp key [] = [] := rfl

@[simp] theorem maskFrom_length (kp : BitVec 2) (key : MaskKey) (v : Buffer) :
    (maskFrom kp key v).length = v.length := by
  induction v generalizing kp with
  | nil => rfl
  | cons b v ih => simp [maskFrom, ih]

/-- The key index after `n` bytes points to key byte `n mod 4` past the one it started at (R32). -/
theorem keyIndex_toNat (kp : BitVec 2) (n : Nat) : (kp + BitVec.ofNat 2 n).toNat = (kp.toNat + n) % 4 := by
  simp [BitVec.toNat_add, BitVec.toNat_ofNat]

/-- The byte loop from any key index is the XOR with the key byte at the index plus the offset. -/
theorem maskFrom_eq_mapIdx (kp : BitVec 2) (key : MaskKey) (v : Buffer) :
    maskFrom kp key v = v.mapIdx fun i b => b ^^^ keyByte key (kp.toNat + i) := by
  induction v generalizing kp with
  | nil => rfl
  | cons b v ih =>
    rw [maskFrom, ih, List.mapIdx_cons]
    congr 1
    congr 1
    funext i c
    have h := keyIndex_toNat kp 1
    rw [show BitVec.ofNat 2 1 = 1#2 from rfl] at h
    rw [h, ← keyByte_mod, ← keyByte_mod key (kp.toNat + (i + 1))]
    congr 2
    omega

/-- The byte loop from key index 0 is R131's rule. -/
theorem maskFrom_zero (key : MaskKey) (v : Buffer) : maskFrom 0#2 key v = maskedBy (keyBytes key) v := by
  rw [maskFrom_eq_mapIdx, maskedBy]
  congr 1
  funext i b
  rw [keyByte_eq_getD]
  simp

@[simp] theorem maskedBy_length (k a : Buffer) : (maskedBy k a).length = a.length := by simp [maskedBy]

@[simp] theorem maskedBy_nil (k : Buffer) : maskedBy k [] = [] := rfl

/-- R131's rule byte by byte. -/
theorem maskedBy_getD (k a : Buffer) (i : Nat) (h : i < a.length) :
    (maskedBy k a).getD i 0#8 = a.getD i 0#8 ^^^ k.getD (i % 4) 0#8 := by
  simp [maskedBy, List.getD_eq_getElem?_getD, h]

/-- XOR with the same bytes twice is the identity, whatever the key buffer. -/
theorem maskedBy_maskedBy (k a : Buffer) : maskedBy k (maskedBy k a) = a := by
  apply List.ext_getElem
  · simp
  · intro i h1 h2
    simp [maskedBy]

/-- A payload in two pieces: the second piece's offsets start at the first's length. -/
theorem maskedBy_append (k a1 a2 : Buffer) :
    maskedBy k (a1 ++ a2) =
      maskedBy k a1 ++ a2.mapIdx fun i b => b ^^^ k.getD ((a1.length + i) % 4) 0#8 := by
  simp only [maskedBy, List.mapIdx_append]
  congr 1
  congr 1
  funext i b
  rw [Nat.add_comm]

/-- A full chunk masked lane by lane is the byte loop over it, because the chunk width is a multiple of 4 (R137). -/
theorem maskChunk_eq (key : MaskKey) (chunk : Buffer) : maskChunk key chunk = maskFrom 0#2 key chunk := by
  rw [maskFrom_eq_mapIdx]
  simp [maskChunk]

/-- After a number of bytes that is a multiple of 4 the byte loop is back at key byte 0 (R132, R209). -/
theorem maskFrom_append (key : MaskKey) (v w : Buffer) (h : v.length % 4 = 0) :
    maskFrom 0#2 key (v ++ w) = maskFrom 0#2 key v ++ maskFrom 0#2 key w := by
  simp only [maskFrom_zero, maskedBy_append]
  congr 1
  simp only [maskedBy]
  congr 1
  funext i b
  rw [Nat.add_mod, h, Nat.zero_add, Nat.mod_mod]

/-! ### Header bytes and lengths -/

@[simp] theorem byte1Mask_encodeByte1 (m : Bool) (l : BitVec 7) : byte1Mask (encodeByte1 m l) = m := by
  revert m l; decide

@[simp] theorem byte1LenCode_encodeByte1 (m : Bool) (l : BitVec 7) : byte1LenCode (encodeByte1 m l) = l := by
  revert m l; decide

/-- Byte 1 of a frame as a number: the mask flag's 128 plus the code (R68). -/
theorem encodeByte1_toNat (m : Bool) (l : BitVec 7) :
    (encodeByte1 m l).toNat = (if m then 128 else 0) + l.toNat := by
  revert m l; decide

/-- The code as a number (R75). -/
theorem lenCode_toNat (n : Nat) :
    (lenCode n).toNat = if n ≤ 125 then n else if n < 65535 then 126 else 127 := by
  unfold lenCode
  split
  · rw [BitVec.toNat_ofNat, Nat.mod_eq_of_lt (by omega)]
  · split <;> rfl

theorem be16_length (n : Nat) : (be16 n).length = 2 := rfl
theorem longField_length (n : Nat) : (longField n).length = 6 := rfl

/-- The length field by length class (R69). -/
theorem lenField_eq (n : Nat) :
    lenField n = if n ≤ 125 then [] else if n < 65535 then be16 n else longField n := by
  have h := lenCode_toNat n
  unfold lenField
  by_cases h1 : n ≤ 125
  · rw [if_pos h1] at h
    rw [if_pos h1, if_neg, if_neg]
    · intro he; rw [he] at h; simp at h; omega
    · intro he; rw [he] at h; simp at h; omega
  · rw [if_neg h1] at h ⊢
    by_cases h2 : n < 65535
    · rw [if_pos h2] at h ⊢
      rw [if_pos (BitVec.eq_of_toNat_eq h)]
    · rw [if_neg h2] at h ⊢
      rw [if_neg, if_pos (BitVec.eq_of_toNat_eq h)]
      intro he; rw [he] at h; simp at h

/-- The length field's size is the `e` of R148. -/
theorem lenField_length (n : Nat) : (lenField n).length = lengthFieldSize n := by
  rw [lenField_eq, lengthFieldSize]
  split
  · rfl
  · by_cases h2 : n < 65535
    · rw [if_pos h2, if_pos (by omega), be16_length]
    · rw [if_neg h2, if_neg (by omega), longField_length]

/-- The 16-bit length as a number (R65). -/
theorem le16_toNat (buf : Buffer) : (le16 buf).toNat = (byteAt buf 0).toNat + 256 * (byteAt buf 1).toNat := by
  have h0 := (byteAt buf 0).isLt
  have h1 := (byteAt buf 1).isLt
  rw [le16, BitVec.toNat_ofNat, Nat.mod_eq_of_lt (by omega)]

/-- Clearing bit 7 of a byte keeps its value modulo 128. -/
theorem and_7F_toNat (b : Byte) : (b &&& 0x7F#8).toNat = b.toNat % 128 := by
  revert b; decide

/-- The long length as a number (R66). -/
theorem long31_toNat (buf : Buffer) :
    (long31 buf).toNat = (byteAt buf 0).toNat + 2 ^ 8 * (byteAt buf 1).toNat + 2 ^ 16 * (byteAt buf 2).toNat
      + 2 ^ 24 * ((byteAt buf 3).toNat % 128) := by
  have h0 := (byteAt buf 0).isLt
  have h1 := (byteAt buf 1).isLt
  have h2 := (byteAt buf 2).isLt
  rw [long31, BitVec.toNat_ofNat, and_7F_toNat, Nat.mod_eq_of_lt (by omega)]

/-- A present length, as a number, is the decoded one, and absent exactly when that is zero (R117). -/
theorem presentLength_map_toNat (l : BitVec 31) :
    (presentLength l).map BitVec.toNat = if l.toNat = 0 then none else some l.toNat := by
  unfold presentLength
  by_cases h : l = 0#31
  · simp [h]
  · have h' : l.toNat ≠ 0 := fun he => h (BitVec.eq_of_toNat_eq he)
    simp [h, h']

@[simp] theorem presentLength_ne_zero (l : BitVec 31) : presentLength l ≠ some 0#31 := by
  unfold presentLength
  split
  · simp
  · simpa using ‹_›

/-- The model's way to say "resolve a present length": the number itself, zero included (R173). -/
theorem resolvedLength_presentLength (l : BitVec 31) : resolvedLength 127#7 (presentLength l) = l.toNat := by
  unfold resolvedLength presentLength
  by_cases h : l = 0#31 <;> simp [h]

end Sys2Proof.Machine
end

