-- ==== Sys2Proof/Laws/Ops.lean ====
section
/-! SUPPORT. What each shared way of ending a transaction does: which fields it writes, and that it keeps the rest. -/

namespace Sys2Proof.Machine

/-- A form row runs exactly on the lengths that select it. -/
theorem whenSelected_next {i : Instr} {s t u : State} :
    whenSelected i s t = .next u ↔ i.admits s.a.length = true ∧ t = u := by
  unfold whenSelected
  by_cases h : i.admits s.a.length <;> simp [h]

theorem whenSelected_of_admits {i : Instr} {s t : State} (h : i.admits s.a.length = true) :
    whenSelected i s t = .next t := whenSelected_next.2 ⟨h, rfl⟩

theorem whenSelected_of_not_admits {i : Instr} {s t : State} (h : i.admits s.a.length = false) :
    whenSelected i s t = .refused .formNotSelected := by
  simp [whenSelected, h]

/-! ### HDR1's ends -/

@[simp] theorem State.returnHeader_hdr (h : Header) (s : State) : (s.returnHeader h).hdr = some h := rfl
@[simp] theorem State.returnHeader_status (h : Header) (s : State) : (s.returnHeader h).status = 0b00#2 := rfl
@[simp] theorem State.returnHeader_seed (h : Header) (s : State) : (s.returnHeader h).seed = s.seed := rfl
@[simp] theorem State.returnHeader_keeps (h : Header) (s : State) : s.keepsOperands (s.returnHeader h) :=
  ⟨rfl, rfl, rfl, rfl⟩

@[simp] theorem State.rejectHeader_hdr (s : State) : s.rejectHeader.hdr = none := rfl
@[simp] theorem State.rejectHeader_status (s : State) : s.rejectHeader.status = 0b01#2 := rfl
@[simp] theorem State.rejectHeader_o (s : State) : s.rejectHeader.o = [] := rfl
@[simp] theorem State.rejectHeader_seed (s : State) : s.rejectHeader.seed = s.seed := rfl
@[simp] theorem State.rejectHeader_keeps (s : State) : s.keepsOperands s.rejectHeader :=
  ⟨rfl, rfl, rfl, rfl⟩

/-! ### HDR2's ends -/

@[simp] theorem State.returnExtended_extLen (l : Option (BitVec 31)) (k : Option MaskKey) (s : State) :
    (s.returnExtended l k).extLen = l := rfl
@[simp] theorem State.returnExtended_key (l : Option (BitVec 31)) (k : Option MaskKey) (s : State) :
    (s.returnExtended l k).key = k := rfl
@[simp] theorem State.returnExtended_seed (l : Option (BitVec 31)) (k : Option MaskKey) (s : State) :
    (s.returnExtended l k).seed = s.seed := rfl
@[simp] theorem State.returnExtended_keeps (l : Option (BitVec 31)) (k : Option MaskKey) (s : State) :
    s.keepsOperands (s.returnExtended l k) := ⟨rfl, rfl, rfl, rfl⟩
/-- HDR2's status is ABSENT exactly when both outputs are (R31). -/
theorem State.returnExtended_status (l : Option (BitVec 31)) (k : Option MaskKey) (s : State) :
    (s.returnExtended l k).status = if l.isNone && k.isNone then 0b01#2 else 0b00#2 := by
  cases l <;> cases k <;> rfl

@[simp] theorem State.rejectExtended_extLen (s : State) : s.rejectExtended.extLen = none := rfl
@[simp] theorem State.rejectExtended_key (s : State) : s.rejectExtended.key = none := rfl
@[simp] theorem State.rejectExtended_status (s : State) : s.rejectExtended.status = 0b01#2 := rfl
@[simp] theorem State.rejectExtended_o (s : State) : s.rejectExtended.o = [] := rfl
@[simp] theorem State.rejectExtended_seed (s : State) : s.rejectExtended.seed = s.seed := rfl
@[simp] theorem State.rejectExtended_keeps (s : State) : s.keepsOperands s.rejectExtended :=
  ⟨rfl, rfl, rfl, rfl⟩

/-! ### XMASK's ends -/

/-- The output of XMASK is R131's rule applied to its operands. -/
@[simp] theorem State.returnMasked_o (cfg : Config) (key : MaskKey) (s : State) :
    (s.returnMasked cfg key).o = maskedBy (keyBytes key) s.a := maskFrom_zero key s.a
@[simp] theorem State.returnMasked_payValid (cfg : Config) (key : MaskKey) (s : State) :
    (s.returnMasked cfg key).payValid = true := rfl
@[simp] theorem State.returnMasked_status (cfg : Config) (key : MaskKey) (s : State) :
    (s.returnMasked cfg key).status = 0b00#2 := rfl
@[simp] theorem State.returnMasked_seed (cfg : Config) (key : MaskKey) (s : State) :
    (s.returnMasked cfg key).seed = s.seed := rfl
@[simp] theorem State.returnMasked_k (cfg : Config) (key : MaskKey) (s : State) :
    (s.returnMasked cfg key).k = s.k := rfl
@[simp] theorem State.returnMasked_pending (cfg : Config) (key : MaskKey) (s : State) :
    (s.returnMasked cfg key).pending = s.pending := rfl
@[simp] theorem State.returnMasked_served (cfg : Config) (key : MaskKey) (s : State) :
    (s.returnMasked cfg key).served = s.served := rfl
/-- The payload buffer afterwards: the output in the in-place form, untouched otherwise. -/
theorem State.returnMasked_a (cfg : Config) (key : MaskKey) (s : State) :
    (s.returnMasked cfg key).a = if cfg.xmaskInPlace then (s.returnMasked cfg key).o else s.a := rfl

@[simp] theorem State.rejectMask_payValid (s : State) : s.rejectMask.payValid = false := rfl
@[simp] theorem State.rejectMask_status (s : State) : s.rejectMask.status = 0b01#2 := rfl
@[simp] theorem State.rejectMask_o (s : State) : s.rejectMask.o = [] := rfl
@[simp] theorem State.rejectMask_seed (s : State) : s.rejectMask.seed = s.seed := rfl
@[simp] theorem State.rejectMask_keeps (s : State) : s.keepsOperands s.rejectMask := ⟨rfl, rfl, rfl, rfl⟩

/-! ### BUILD's ends -/

/-- A frame is its two header bytes, its length field, and its key and payload, in that order (R149). -/
theorem State.returnFrame_o (m : Bool) (code : BitVec 7) (field : Buffer) (s : State) :
    (s.returnFrame config m code field).o =
      [s.b0, encodeByte1 m code] ++ field ++ keyAndPayload m s.seed s.a := by
  cases m
  · rfl
  · show (([] ++ [s.b0, encodeByte1 true code]) ++ field ++ keyAfter s.seed)
        ++ maskFrom 0#2 (config.keyOfSeed (seedAfter true s.seed)) s.a = _
    rw [maskFrom_zero]
    simp [keyAndPayload, keyAfter]

/-- SEED after a frame (R154). -/
theorem State.returnFrame_seed (m : Bool) (code : BitVec 7) (field : Buffer) (s : State) :
    (s.returnFrame config m code field).seed = seedAfter m s.seed := by
  cases m <;> simp [State.returnFrame, State.maskedPhases, State.rawPhase, State.headerPhase, State.lengthPhase,
    seedAfter, seedUpdate]

@[simp] theorem State.returnFrame_status (cfg : Config) (m : Bool) (code : BitVec 7) (field : Buffer) (s : State) :
    (s.returnFrame cfg m code field).status = 0b00#2 := rfl
@[simp] theorem State.returnFrame_errArgs (cfg : Config) (m : Bool) (code : BitVec 7) (field : Buffer) (s : State) :
    (s.returnFrame cfg m code field).errArgs = false := rfl
@[simp] theorem State.returnFrame_keeps (cfg : Config) (m : Bool) (code : BitVec 7) (field : Buffer) (s : State) :
    s.keepsOperands (s.returnFrame cfg m code field) := by
  cases m <;> simp [State.keepsOperands, State.returnFrame, State.maskedPhases, State.rawPhase,
    State.headerPhase, State.lengthPhase]

@[simp] theorem State.rejectArguments_errArgs (s : State) : s.rejectArguments.errArgs = true := rfl
@[simp] theorem State.rejectArguments_status (s : State) : s.rejectArguments.status = 0b10#2 := rfl
@[simp] theorem State.rejectArguments_o (s : State) : s.rejectArguments.o = [] := rfl
@[simp] theorem State.rejectArguments_seed (s : State) : s.rejectArguments.seed = s.seed := rfl
@[simp] theorem State.rejectArguments_keeps (s : State) : s.keepsOperands s.rejectArguments :=
  ⟨rfl, rfl, rfl, rfl⟩

/-- The key and payload part has the length R148 gives it. -/
theorem keyAndPayload_length (m : Bool) (seed : Seed) (a : Buffer) :
    (keyAndPayload m seed a).length = (if m then 4 else 0) + a.length := by
  cases m <;> simp [keyAndPayload, keyAfter]

end Sys2Proof.Machine
end

