-- ==== Sys2Proof/Laws/Exec.lean ====
section
/-! SUPPORT. What exec can answer, said once, and what decode can give: later proofs take these apart instead of unfolding exec and decode. -/

namespace Sys2Proof.Machine

/-! ### The meanings on the operands they ask for -/

theorem exec_hdr1_pair {s : State} {x y : Byte} (h : s.a = [x, y]) :
    exec .hdr1 s = .next (s.returnHeader (parseHeader x y)) := by
  simp [exec, execHdr1, h]

theorem exec_hdr1_reject {s : State} (h : s.a.length ≠ 2) : exec .hdr1 s = .next s.rejectHeader := by
  simp only [exec, execHdr1]
  split
  · simp_all
  · rfl

theorem exec_xmask_some {s : State} {key : MaskKey} (hk : s.k = keyBytes key) (ha : s.a ≠ []) :
    exec .xmask s = .next (s.returnMasked config key) := by
  obtain ⟨b, rest, hb⟩ := List.exists_cons_of_ne_nil ha
  simp [exec, execXmask, hk, hb]

theorem exec_xmask_reject {s : State} (h : s.k.length ≠ 4 ∨ s.a = []) : exec .xmask s = .next s.rejectMask := by
  simp only [exec, execXmask]
  split
  · rename_i key _ _ hk ha
    rw [keyOfBuffer_eq_some] at hk
    simp [hk, ha] at h
  · rfl

theorem exec_build_present (s : State) (m : Bool) :
    exec (.build true true true m) s =
      .next (s.returnFrame config m (lenCode s.a.length) (lenField s.a.length)) := rfl

theorem exec_build_missing {s : State} {k b p : Bool} (m : Bool) (h : (k && b && p) = false) :
    exec (.build k b p m) s = .next s.rejectArguments := by
  simp [exec, execBuild, h]

/-- HDR2's result on the lengths it admits is some pair of outputs, and the one rejection elsewhere. -/
theorem exec_hdr2_cases (s : State) :
    (∃ l k, exec .hdr2 s = .next (s.returnExtended l k) ∧ l ≠ some 0#31 ∧ s.a.length ∈ [2, 4, 6, 8, 12] ∧
      (l ≠ none → s.a.length ∈ [2, 6, 8, 12]) ∧ (k ≠ none ↔ s.a.length ∈ [4, 6, 12])) ∨
    (exec .hdr2 s = .next s.rejectExtended ∧ s.a.length ∉ [2, 4, 6, 8, 12]) := by
  simp only [exec, execHdr2]
  split
  all_goals first
    | exact .inl ⟨_, _, rfl, by simp, by simp [*], by simp [*], by simp [*]⟩
    | exact .inr ⟨rfl, by simp; tauto⟩

/-! ### Forms are their operation -/

/-- The selected form of HDR2 does what HDR2 does (R77, R111). -/
theorem exec_hdr2Form (s : State) : exec (hdr2Form s.a.length) s = exec .hdr2 s := by
  unfold hdr2Form
  split_ifs with h2 h4 h6 h8 h12
  · simp [exec, execHdr2, execHdr2L16, whenSelected, Instr.admits, h2]
  · simp [exec, execHdr2, execHdr2K, whenSelected, Instr.admits, h4]
  · simp [exec, execHdr2, execHdr2L16K, whenSelected, Instr.admits, h6]
  · simp [exec, execHdr2, execHdr2L31, whenSelected, Instr.admits, h8]
  · simp [exec, execHdr2, execHdr2L31K, whenSelected, Instr.admits, h12]
  · simp [exec, execHdr2, execHdr2Bad, whenSelected, Instr.admits, h2, h4, h6, h8, h12]

/-- The selected form of BUILD does what BUILD does (R77, R141). -/
theorem exec_buildForm (s : State) (k b p m : Bool) :
    exec (buildForm k b p m s.a.length) s = exec (.build k b p m) s := by
  have hc := lenCode_toNat s.a.length
  have hf := lenField_eq s.a.length
  cases k <;> cases b <;> cases p <;> try rfl
  simp only [buildForm, Bool.true_eq_false, if_false]
  rw [exec_build_present]
  split
  · rename_i h
    have : whenSelected (.buildS m) s (s.returnFrame config m (BitVec.ofNat 7 s.a.length) []) = _ :=
      whenSelected_of_admits (by simpa [Instr.admits] using h)
    rw [if_pos h] at hf
    simp only [exec, execBuildS, this, hf, lenCode, if_pos h]
  · rename_i h
    rw [if_neg h] at hf
    split
    · rename_i h2
      have : whenSelected (.buildM m) s (s.returnFrame config m 126#7 (be16 s.a.length)) = _ :=
        whenSelected_of_admits (by simp [Instr.admits]; omega)
      rw [if_pos (by omega)] at hf
      simp only [exec, execBuildM, this, hf, lenCode, if_neg h, if_pos (show s.a.length < 65535 by omega)]
    · rename_i h2
      have : whenSelected (.buildL m) s (s.returnFrame config m 127#7 (longField s.a.length)) = _ :=
        whenSelected_of_admits (by simp [Instr.admits]; omega)
      rw [if_neg (by omega)] at hf
      simp only [exec, execBuildL, this, hf, lenCode, if_neg h, if_neg (show ¬ s.a.length < 65535 by omega)]

/-- The refined row of an operation does what the operation does. -/
theorem exec_refineByLength (i : Instr) (s : State) : exec (refineByLength i s.a.length) s = exec i s := by
  unfold refineByLength
  split
  · exact exec_hdr2Form s
  · exact exec_buildForm s _ _ _ _
  · rfl

/-! ### Inversion -/

/-- Everything exec can do when it answers a next state. -/
theorem exec_next {i : Instr} {s t : State} (h : exec i s = .next t) :
    (i = .hdr1 ∧ ((∃ hd, t = s.returnHeader hd) ∨ t = s.rejectHeader)) ∨
    (encode i = 0x01#8 ∧ ((∃ l k, t = s.returnExtended l k) ∨ t = s.rejectExtended)) ∨
    (i = .xmask ∧ ((∃ key, s.k = keyBytes key ∧ s.a ≠ [] ∧ t = s.returnMasked config key) ∨ t = s.rejectMask)) ∨
    (∃ m code field, drawsKey i = m ∧ t = s.returnFrame config m code field) ∨
    (drawsKey i = false ∧ t = s.rejectArguments) := by
  cases i
  case hdr1 =>
    by_cases ha : s.a.length = 2
    · match hs : s.a, ha with
      | [x, y], _ =>
        rw [exec_hdr1_pair hs] at h
        cases h
        exact .inl ⟨rfl, .inl ⟨_, rfl⟩⟩
    · rw [exec_hdr1_reject ha] at h
      cases h
      exact .inl ⟨rfl, .inr rfl⟩
  case hdr2 =>
    rcases exec_hdr2_cases s with ⟨l, k, he, -⟩ | ⟨he, -⟩ <;> rw [he] at h <;> cases h
    · exact .inr (.inl ⟨rfl, .inl ⟨l, k, rfl⟩⟩)
    · exact .inr (.inl ⟨rfl, .inr rfl⟩)
  case hdr2Bad =>
    obtain ⟨-, rfl⟩ := whenSelected_next.1 h
    exact .inr (.inl ⟨rfl, .inr rfl⟩)
  case xmask =>
    by_cases hx : s.k.length ≠ 4 ∨ s.a = []
    · rw [exec_xmask_reject hx] at h
      cases h
      exact .inr (.inr (.inl ⟨rfl, .inr rfl⟩))
    · obtain ⟨key, hk⟩ := exists_keyBytes (by tauto : s.k.length = 4)
      have ha : s.a ≠ [] := by tauto
      rw [exec_xmask_some hk ha] at h
      cases h
      exact .inr (.inr (.inl ⟨rfl, .inl ⟨key, hk, ha, rfl⟩⟩))
  case build k b p m =>
    cases hp : (k && b && p)
    · rw [exec_build_missing m hp] at h
      cases h
      exact .inr (.inr (.inr (.inr ⟨by simp [drawsKey, hp], rfl⟩)))
    · simp only [exec, execBuild, hp, if_true] at h
      cases h
      exact .inr (.inr (.inr (.inl ⟨m, _, _, by simp [drawsKey, hp], rfl⟩)))
  case wireByte0 => cases h
  case wireByte1 => cases h
  all_goals first
    | (obtain ⟨-, rfl⟩ := whenSelected_next.1 h
       first
        | exact .inr (.inl ⟨rfl, .inl ⟨_, _, rfl⟩⟩)
        | exact .inr (.inr (.inr (.inl ⟨_, _, _, rfl, rfl⟩))))
    | (cases h
       exact .inr (.inr (.inr (.inr ⟨rfl, rfl⟩))))

/-- The rows whose word is HDR2's draw no key. -/
theorem drawsKey_of_encode_hdr2 {i : Instr} (h : i.kind ≠ .wire) (he : encode i = 0x01#8) : drawsKey i = false := by
  cases i with
  | build k b p m => revert k b p m; decide
  | buildS m | buildM m | buildL m => revert m; decide
  | wireByte0 | wireByte1 => exact absurd rfl h
  | _ => rfl

/-- A WIRE row answers no next state. -/
theorem kind_of_exec_next {i : Instr} {s t : State} (h : exec i s = .next t) : i.kind ≠ .wire := by
  cases i with
  | wireByte0 | wireByte1 => cases h
  | _ => simp [Instr.kind]

/-- Over all instructions: the requests still pending, the K buffer, and whose transaction it is, stay. -/
theorem exec_keeps {i : Instr} {s t : State} (h : exec i s = .next t) :
    t.pending = s.pending ∧ t.k = s.k ∧ t.served = s.served := by
  rcases exec_next h with ⟨-, ⟨_, rfl⟩ | rfl⟩ | ⟨-, ⟨_, _, rfl⟩ | rfl⟩ | ⟨-, ⟨_, -, -, rfl⟩ | rfl⟩ | ⟨m, c, f, -, rfl⟩ | ⟨-, rfl⟩
  case inr.inr.inr.inl =>
    obtain ⟨-, hk, hp, hv⟩ := State.returnFrame_keeps config m c f s
    exact ⟨hp, hk, hv⟩
  all_goals exact ⟨rfl, rfl, rfl⟩

/-- Over all instructions: what SEED is afterwards (R154). -/
theorem exec_seed {i : Instr} {s t : State} (h : exec i s = .next t) : t.seed = seedAfter (drawsKey i) s.seed := by
  have hk := kind_of_exec_next h
  rcases exec_next h with ⟨rfl, ⟨_, rfl⟩ | rfl⟩ | ⟨he, h2⟩ | ⟨rfl, ⟨_, -, -, rfl⟩ | rfl⟩ | ⟨m, _, _, hm, rfl⟩ | ⟨hm, rfl⟩
  · rfl
  · rfl
  · rw [drawsKey_of_encode_hdr2 hk he]
    rcases h2 with ⟨_, _, rfl⟩ | rfl <;> rfl
  · rfl
  · rfl
  · rw [State.returnFrame_seed, hm]
  · rw [hm]; rfl

end Sys2Proof.Machine
end

