-- ==== Sys2Proof/Laws/Decode.lean ====
section
/-! SUPPORT. What the decoder can give: its operation rows with their words, and the refinement by length. -/

namespace Sys2Proof.Machine

/-- An operation row is read only from its own word. -/
theorem decodeOperation_ok {w : Byte} {i : Instr} (h : decodeOperation w = .ok i) :
    encode i = w ∧ i.kind = .operation := by
  have all : ∀ w : Byte, (match decodeOperation w with
      | .ok i => decide (encode i = w ∧ i.kind = .operation)
      | .error _ => true) = true := by decide
  have := all w
  rw [h] at this
  simpa using this

/-- Every operation row is read back from its word. -/
theorem decodeOperation_encode {i : Instr} (h : i.kind = .operation) : decodeOperation (encode i) = .ok i := by
  cases i with
  | build k b p m => revert k b p m; decide
  | hdr1 | hdr2 | xmask => rfl
  | _ => cases h

theorem decode_eq (w : Byte) (n : Nat) :
    decode w n = (decodeOperation w).map fun i => refineByLength i n := by
  unfold decode
  cases decodeOperation w <;> rfl

/-- The decoder's answer is the operation's row refined by length. -/
theorem decode_ok {w : Byte} {n : Nat} {i : Instr} :
    decode w n = .ok i ↔ ∃ j, decodeOperation w = .ok j ∧ i = refineByLength j n := by
  rw [decode_eq]
  cases decodeOperation w <;> simp [Except.map, eq_comm]

/-- Executing what the decoder read is executing the operation's row. -/
theorem exec_decoded {w : Byte} {s : State} {i : Instr} (h : decode w s.a.length = .ok i) :
    ∃ j, decodeOperation w = .ok j ∧ exec i s = exec j s := by
  obtain ⟨j, hj, rfl⟩ := decode_ok.1 h
  exact ⟨j, hj, exec_refineByLength j s⟩

/-- An operation row always answers a next state. -/
theorem exec_operation_total {i : Instr} (h : i.kind = .operation) (s : State) : ∃ t, exec i s = .next t := by
  cases i with
  | hdr1 =>
    by_cases ha : s.a.length = 2
    · match hs : s.a, ha with
      | [x, y], _ => exact ⟨_, exec_hdr1_pair hs⟩
    · exact ⟨_, exec_hdr1_reject ha⟩
  | hdr2 => rcases exec_hdr2_cases s with ⟨_, _, he, -⟩ | ⟨he, -⟩ <;> exact ⟨_, he⟩
  | xmask =>
    by_cases hx : s.k.length ≠ 4 ∨ s.a = []
    · exact ⟨_, exec_xmask_reject hx⟩
    · obtain ⟨key, hk⟩ := exists_keyBytes (by tauto : s.k.length = 4)
      exact ⟨_, exec_xmask_some hk (by tauto)⟩
  | build k b p m =>
    cases hp : (k && b && p)
    · exact ⟨_, exec_build_missing m hp⟩
    · exact ⟨_, if_pos hp⟩
  | _ => cases h

/-- What the decoder read always runs on the operands it read it with. -/
theorem exec_decoded_total {w : Byte} {s : State} {i : Instr} (h : decode w s.a.length = .ok i) :
    ∃ t, exec i s = .next t := by
  obtain ⟨j, hj, he⟩ := exec_decoded h
  rw [he]
  exact exec_operation_total (decodeOperation_ok hj).2 s

end Sys2Proof.Machine
end

