-- ==== Sys2Proof/Laws/PerInstr.lean ====
section
/-! SUPPORT. Families of facts about every instruction, one lemma per constructor. -/

namespace Sys2Proof.Laws.MatchesRow

/-- The `mask` column of spec/opcode_table.json, copied from the table. -/
def rowMask : Instr → Byte
  | .hdr1 => 0xFF#8
  | .hdr2 => 0xFF#8
  | .hdr2L16 => 0xFF#8
  | .hdr2K => 0xFF#8
  | .hdr2L16K => 0xFF#8
  | .hdr2L31 => 0xFF#8
  | .hdr2L31K => 0xFF#8
  | .hdr2Bad => 0xFF#8
  | .xmask => 0xFF#8
  | .build _ _ _ _ => 0xC3#8
  | .buildS _ => 0xFB#8
  | .buildM _ => 0xFB#8
  | .buildL _ => 0xFB#8
  | .buildErrMk _ _ _ => 0xE3#8
  | .buildErrB0 _ _ _ => 0xD3#8
  | .buildErrPl _ _ _ => 0xCB#8
  | .wireByte0 _ _ _ => 0x00#8
  | .wireByte1 _ _ => 0x00#8

/-- The `match` column of spec/opcode_table.json, copied from the table. -/
def rowMatch : Instr → Byte
  | .hdr1 => 0x00#8
  | .hdr2 => 0x01#8
  | .hdr2L16 => 0x01#8
  | .hdr2K => 0x01#8
  | .hdr2L16K => 0x01#8
  | .hdr2L31 => 0x01#8
  | .hdr2L31K => 0x01#8
  | .hdr2Bad => 0x01#8
  | .xmask => 0x02#8
  | .build _ _ _ _ => 0x03#8
  | .buildS _ => 0x3B#8
  | .buildM _ => 0x3B#8
  | .buildL _ => 0x3B#8
  | .buildErrMk _ _ _ => 0x03#8
  | .buildErrB0 _ _ _ => 0x03#8
  | .buildErrPl _ _ _ => 0x03#8
  | .wireByte0 _ _ _ => 0x00#8
  | .wireByte1 _ _ => 0x00#8

/-- The encoder's word lies in the instruction's row: its bits under the row's mask are the row's match. -/
def Statement (i : Instr) : Prop := encode i &&& rowMask i = rowMatch i

theorem hdr1 : Statement .hdr1 := rfl
theorem hdr2 : Statement .hdr2 := rfl
theorem hdr2L16 : Statement .hdr2L16 := rfl
theorem hdr2K : Statement .hdr2K := rfl
theorem hdr2L16K : Statement .hdr2L16K := rfl
theorem hdr2L31 : Statement .hdr2L31 := rfl
theorem hdr2L31K : Statement .hdr2L31K := rfl
theorem hdr2Bad : Statement .hdr2Bad := rfl
theorem xmask : Statement .xmask := rfl
theorem build (k b p m : Bool) : Statement (.build k b p m) := by
  revert k b p m; unfold Statement; decide
theorem buildS (m : Bool) : Statement (.buildS m) := by revert m; unfold Statement; decide
theorem buildM (m : Bool) : Statement (.buildM m) := by revert m; unfold Statement; decide
theorem buildL (m : Bool) : Statement (.buildL m) := by revert m; unfold Statement; decide
theorem buildErrMk (b p m : Bool) : Statement (.buildErrMk b p m) := by
  revert b p m; unfold Statement; decide
theorem buildErrB0 (k p m : Bool) : Statement (.buildErrB0 k p m) := by
  revert k p m; unfold Statement; decide
theorem buildErrPl (k b m : Bool) : Statement (.buildErrPl k b m) := by
  revert k b m; unfold Statement; decide
theorem wireByte0 (f : Bool) (r : BitVec 3) (o : BitVec 4) : Statement (.wireByte0 f r o) := by
  simp [Statement, rowMask, rowMatch]
theorem wireByte1 (m : Bool) (l : BitVec 7) : Statement (.wireByte1 m l) := by
  simp [Statement, rowMask, rowMatch]

end Sys2Proof.Laws.MatchesRow
end

