-- ==== Sys2Proof/Laws/Step.lean ====
section
/-! SUPPORT. What a step can do, said once. -/

namespace Sys2Proof.Machine

theorem step_idle {s : State} (h : s.pending = []) : step s = .next s.lapse := by simp [step, h]

theorem step_reset {s : State} {rest : List Request} (h : s.pending = .reset :: rest) :
    step s = .next (s.takeReset rest) := by simp [step, h]

theorem step_command {s : State} {c : Command} {rest : List Request} {i : Instr}
    (h : s.pending = .command c :: rest) (hd : decode c.cmd c.a.length = .ok i) :
    step s = exec i (s.takeCommand c rest) := by simp [step, h, hd]

theorem step_refused {s : State} {c : Command} {rest : List Request} {e : DecodeError}
    (h : s.pending = .command c :: rest) (hd : decode c.cmd c.a.length = .error e) :
    step s = .refused (refusalOf e) := by simp [step, h, hd]

/-- Inversion: a step that answers a next state was idle, took a reset, or ran a decoded command. -/
theorem step_next {s t : State} (h : step s = .next t) :
    (s.pending = [] ∧ t = s.lapse) ∨
    (∃ rest, s.pending = .reset :: rest ∧ t = s.takeReset rest) ∨
    (∃ c rest i, s.pending = .command c :: rest ∧ decode c.cmd c.a.length = .ok i ∧
      exec i (s.takeCommand c rest) = .next t) := by
  match hp : s.pending with
  | [] => rw [step_idle hp] at h; cases h; exact .inl ⟨rfl, rfl⟩
  | .reset :: rest => rw [step_reset hp] at h; cases h; exact .inr (.inl ⟨rest, rfl, rfl⟩)
  | .command c :: rest =>
    cases hd : decode c.cmd c.a.length with
    | error e => rw [step_refused hp hd] at h; cases h
    | ok i =>
      rw [step_command hp hd] at h
      exact .inr (.inr ⟨c, rest, i, rfl, hd, h⟩)

/-- A run that begins with a step to `u` goes on from `u`. -/
theorem run_succ {s u : State} (n : Nat) (h : step s = .next u) :
    Host.Core.run Sys2Proof.core (n + 1) s = Host.Core.run Sys2Proof.core n u := by
  have h' : Sys2Proof.core.step s = .next u := h
  simp [Host.Core.run, h']

/-- A legal command is one the decoder reads. -/
theorem Command.legal_iff {c : Command} : c.legal = true ↔ ∃ i, decode c.cmd c.a.length = .ok i := by
  unfold Command.legal
  cases decode c.cmd c.a.length <;> simp

/-- A transaction of the caller's is exec of its operation row with the operands in the registers. -/
theorem transact_eq {c : Command} {i : Instr} (s : State) (hd : decodeOperation c.cmd = .ok i) :
    transact c s = exec i (s.takeCommand c s.pending) := by
  have h2 : decode c.cmd c.a.length = .ok (refineByLength i c.a.length) := decode_ok.2 ⟨i, hd, rfl⟩
  rw [transact, step_command (State.issue_pending c s) h2]
  exact exec_refineByLength i (s.takeCommand c s.pending)

end Sys2Proof.Machine
end

