-- ==== Sys2Proof/Tests/Slice0.lean ====
section
/-! SUPPORT. Tests: decoding of words written out from the spec, well-formedness, the spec's own vectors, and a witness for the hypotheses of every statement that has some. -/

namespace Sys2Proof.Tests

open Sys2Proof.Machine

/-- A small state: the reset state with operands in the registers. -/
def st (a : Buffer) (k : Buffer := []) (b0 : Byte := 0#8) : State := { State.reset with a := a, k := k, b0 := b0 }

/-- The next state of an outcome, if it is one. -/
def nextOf (o : Host.Outcome State Fault Refusal) : Option State :=
  match o with
  | .next t => some t
  | _ => none

/-- The bytes of "Hello". -/
def hello : Buffer := [0x48, 0x65, 0x6C, 0x6C, 0x6F]

/-! ### Decoding (words from R76, R77, R83 and sections 2.4 to 2.6 of 95_test_vectors.md) -/

theorem test_decode_hdr1 : decode 0b00000000#8 2 = .ok .hdr1 := by decide
theorem test_decode_hdr2 : decodeOperation 0b00000001#8 = .ok .hdr2 := by decide
theorem test_decode_hdr2L16 : decode 0b00000001#8 2 = .ok .hdr2L16 := by decide
theorem test_decode_hdr2K : decode 0b00000001#8 4 = .ok .hdr2K := by decide
theorem test_decode_hdr2L16K : decode 0b00000001#8 6 = .ok .hdr2L16K := by decide
theorem test_decode_hdr2L31 : decode 0b00000001#8 8 = .ok .hdr2L31 := by decide
theorem test_decode_hdr2L31K : decode 0b00000001#8 12 = .ok .hdr2L31K := by decide
theorem test_decode_hdr2Bad : decode 0b00000001#8 10 = .ok .hdr2Bad := by decide
theorem test_decode_xmask : decode 0b00000010#8 7 = .ok .xmask := by decide
theorem test_decode_build : decodeOperation 0b00101111#8 = .ok (.build true false true true) := by decide
theorem test_decode_buildS : decode 0b00111011#8 125 = .ok (.buildS false) := by decide
theorem test_decode_buildM : decode 0b00111111#8 65534 = .ok (.buildM true) := by decide
theorem test_decode_buildL : decode 0b00111111#8 65535 = .ok (.buildL true) := by decide
/-- V-R1: 0x1B leaves out MK. -/
theorem test_decode_buildErrMk : decode 0b00011011#8 5 = .ok (.buildErrMk true true false) := by decide
/-- V-R2: 0x2F leaves out B0. -/
theorem test_decode_buildErrB0 : decode 0b00101111#8 5 = .ok (.buildErrB0 true true true) := by decide
/-- V-R3: 0x37 leaves out A. -/
theorem test_decode_buildErrPl : decode 0b00110111#8 0 = .ok (.buildErrPl true true true) := by decide
/-- R61 with the bytes of V-H10: F1 is fin 1, bits 6:4 111, opcode 1. -/
theorem test_decode_wireByte0 : decodeWireByte0 0b11110001#8 = .wireByte0 true 0b111#3 0b0001#4 := by decide
/-- R62 with the bytes of V-H4: FE is mask 1, code 126. -/
theorem test_decode_wireByte1 : decodeWireByte1 0b11111110#8 = .wireByte1 true 126#7 := by decide
/-- The refused commands of section 2.6: 0x04, 0x42, 0x83, 0xFF. -/
theorem test_decode_refused :
    decode 0x04#8 2 = .error .buildBitsOutsideBuild ∧ decode 0x42#8 2 = .error .reservedBits ∧
    decode 0x83#8 2 = .error .reservedBits ∧ decode 0xFF#8 2 = .error .reservedBits := by decide
/-- The script syntax of R83 gives the CMD bytes it lists. -/
theorem test_script_commands :
    (Command.build (some hello) (some 0x81#8) (some true)).cmd = 0x3F#8 ∧
    (Command.build (some hello) (some 0x81#8) none).cmd = 0x1B#8 ∧
    (Command.build (some hello) none (some true)).cmd = 0x2F#8 ∧
    (Command.build none none none).cmd = 0x03#8 := by decide

/-! ### Well-formedness: an ill-formed term for each check -/

theorem test_ill_formed_buildErrB0 : (Instr.buildErrB0 false true true).wellFormed = false := by decide
theorem test_ill_formed_buildErrPl_k : (Instr.buildErrPl false true true).wellFormed = false := by decide
theorem test_ill_formed_buildErrPl_b : (Instr.buildErrPl true false true).wellFormed = false := by decide
theorem test_well_formed_buildErrPl : (Instr.buildErrPl true true false).wellFormed = true := by decide

/-! ### The spec's vectors, one transaction each -/

/-- V-H1, the document's own example (S3). -/
theorem test_hdr1_document_example :
    (nextOf (exec .hdr1 (st [0x81, 0x05]))).map State.hdr = some (some ⟨true, 1#4, 5#7, false⟩) := by decide
/-- V-H14: one byte too many. -/
theorem test_hdr1_three_bytes :
    (nextOf (exec .hdr1 (st [0x81, 0x05, 0x48]))).map (fun t => (t.hdr, t.status)) = some (none, 0b01#2) := by decide
/-- V-E2: 00 7E reads as 32256. -/
theorem test_hdr2L16_low_byte_first :
    (nextOf (exec .hdr2L16 (st [0x00, 0x7E]))).map State.extLen = some (some 32256#31) := by decide
/-- V-E6: a zero length is absent, status 01. -/
theorem test_hdr2L16_zero :
    (nextOf (exec .hdr2L16 (st [0x00, 0x00]))).map (fun t => (t.extLen, t.status)) = some (none, 0b01#2) := by decide
/-- V-E7. -/
theorem test_hdr2K :
    (nextOf (exec .hdr2K (st [0x37, 0xFA, 0x21, 0x3D]))).map (fun t => (t.extLen, t.key, t.status)) =
      some (none, some ⟨0x37, 0xFA, 0x21, 0x3D⟩, 0b00#2) := by decide
/-- V-E9. -/
theorem test_hdr2L16K :
    (nextOf (exec .hdr2L16K (st [0x05, 0x01, 0x37, 0xFA, 0x21, 0x3D]))).map (fun t => (t.extLen, t.key)) =
      some (some 261#31, some ⟨0x37, 0xFA, 0x21, 0x3D⟩) := by decide
/-- V-E12. -/
theorem test_hdr2L31_ascending :
    (nextOf (exec .hdr2L31 (st [0x78, 0x56, 0x34, 0x12, 0xDE, 0xAD, 0xBE, 0xEF]))).map State.extLen =
      some (some 0x12345678#31) := by decide
/-- V-E14: only the dropped bit is set, so the length is absent. -/
theorem test_hdr2L31_dropped_bit :
    (nextOf (exec .hdr2L31 (st [0x00, 0x00, 0x00, 0x80, 0x01, 0x02, 0x03, 0x04]))).map State.extLen =
      some none := by decide
/-- V-E19, through the whole operation. -/
theorem test_hdr2_L31K :
    (nextOf (exec .hdr2 (st [0x00, 0x00, 0x01, 0x80, 0xAA, 0xBB, 0xCC, 0xDD, 1, 2, 3, 4]))).map
      (fun t => (t.extLen, t.key)) = some (some 65536#31, some ⟨1, 2, 3, 4⟩) := by decide
/-- V-E20, through the form. -/
theorem test_hdr2L31K_zero_length :
    (nextOf (exec .hdr2L31K (st [0, 0, 0, 0, 0, 0, 0, 0, 0xDE, 0xAD, 0xBE, 0xEF]))).map
      (fun t => (t.extLen, t.key, t.status)) = some (none, some ⟨0xDE, 0xAD, 0xBE, 0xEF⟩, 0b00#2) := by decide
/-- V-E24. -/
theorem test_hdr2Bad :
    (nextOf (exec .hdr2Bad (st [1, 2, 3]))).map (fun t => (t.extLen, t.key, t.status)) =
      some (none, none, 0b01#2) := by decide
/-- V-X1. -/
theorem test_xmask_hello :
    (nextOf (exec .xmask (st [0x7F, 0x9F, 0x4D, 0x51, 0x58] [0x37, 0xFA, 0x21, 0x3D]))).map State.o =
      some hello := by decide
/-- V-X13: an empty payload. -/
theorem test_xmask_empty :
    (nextOf (exec .xmask (st [] [1, 2, 3, 4]))).map (fun t => (t.payValid, t.status)) =
      some (false, 0b01#2) := by decide
/-- V-B3. -/
theorem test_buildS_hello :
    (nextOf (exec (.buildS false) (st hello [] 0x81))).map State.o =
      some [0x81, 0x05, 0x48, 0x65, 0x6C, 0x6C, 0x6F] := by decide
/-- V-M1 under REFCFG, on the generator's seed 1: frame and seed. -/
theorem test_frame_masked_reference :
    let t := State.returnFrame Config.reference true 5#7 [] { st hello [] 0x81 with seed := 1#32 }
    t.o = [0x81, 0x85, 0xDC, 0x0E, 0x0F, 0x0F, 0x94, 0x6B, 0x63, 0x63, 0xB3] ∧ t.seed = 0x0F0F0EDC#32 := by decide
/-- V-B5 and V-B7: the 16-bit field is big-endian. -/
theorem test_be16 : be16 126 = [0x00, 0x7E] ∧ be16 256 = [0x01, 0x00] := by decide
/-- V-B5: the first bytes of the frame. -/
theorem test_buildM_head (s : State) (hb : s.b0 = 0x82) (h : s.a.length = 126) :
    ∃ t, exec (.buildM false) s = .next t ∧ t.o.take 4 = [0x82, 0x7E, 0x00, 0x7E] := by
  refine ⟨_, whenSelected_of_admits (by rw [h]; rfl), ?_⟩
  rw [State.returnFrame_o, h, hb]
  generalize keyAndPayload _ _ _ = rest
  rfl
/-- V-B10, V-B13, V-B14: the 6-byte field. -/
theorem test_longField :
    longField 65535 = [0x00, 0x00, 0xFF, 0xFF, 0x00, 0x00] ∧ longField 16777216 = [0x01, 0, 0, 0, 0, 0] ∧
    longField (2 ^ 31 + 5) = [0, 0, 0, 0x05, 0, 0] := by decide
/-- S7: the boundaries of the code. -/
theorem test_lenCode :
    lenCode 125 = 125#7 ∧ lenCode 126 = 126#7 ∧ lenCode 65534 = 126#7 ∧ lenCode 65535 = 127#7 := by decide
/-- V-B10: the head of the frame of 65535 bytes. -/
theorem test_buildL_head (s : State) (hb : s.b0 = 0x82) (h : s.a.length = 65535) :
    ∃ t, exec (.buildL false) s = .next t ∧
      t.o.take 8 = [0x82, 0x7F, 0x00, 0x00, 0xFF, 0xFF, 0x00, 0x00] := by
  refine ⟨_, whenSelected_of_admits (by rw [h]; rfl), ?_⟩
  rw [State.returnFrame_o, h, hb]
  generalize keyAndPayload _ _ _ = rest
  rfl
/-- V-R2 through the whole operation: no byte, status 10. -/
theorem test_build_missing_b0 :
    (nextOf (exec (.build true false true true) (st hello))).map (fun t => (t.o, t.errArgs, t.status)) =
      some ([], true, 0b10#2) := by decide
/-- V-R1, V-R2, V-R3 through the rows of BUILD.ERR. -/
theorem test_buildErr_rows :
    (nextOf (exec (.buildErrMk true true false) (st hello))).map State.status = some 0b10#2 ∧
    (nextOf (exec (.buildErrB0 true true true) (st hello))).map State.status = some 0b10#2 ∧
    (nextOf (exec (.buildErrPl true true true) (st hello))).map State.errArgs = some true := by decide
/-- The table of section 2.5: the generator's first steps under REFCFG, and the default key. -/
theorem test_generator_reference :
    seedUpdate 0xA5A5A5A5#32 0x00000001#32 = 0x0F0F0EDC#32 ∧ seedUpdate 0xA5A5A5A5#32 0x6E6775A0#32 = 0xAC97309B#32 ∧
    Config.keyOfSeedDefault 0xAC97309B#32 = ⟨0x9B, 0x30, 0x97, 0xAC⟩ := by decide
/-- The wide masker on V-X9, with chunks of 8 bytes and a tail of 2. -/
theorem test_wideMask :
    wideMask 8 ⟨1, 2, 3, 4⟩ 1 [0x10, 0x20, 0x30, 0x40, 0x50, 0x60, 0x70, 0x80, 0x90, 0xA0] =
      [0x11, 0x22, 0x33, 0x44, 0x51, 0x62, 0x73, 0x84, 0x91, 0xA2] := by decide
/-- A WIRE row is no command. -/
theorem test_wire_rows_stop :
    exec (.wireByte0 true 0#3 1#4) State.reset = .refused .notACommand ∧
    exec (.wireByte1 true 5#7) State.reset = .refused .notACommand := ⟨rfl, rfl⟩
/-- The first step after reset on a table row's word runs it (BUILD.S, 0x3B, empty payload: V-R5). -/
theorem test_first_step_after_reset :
    (nextOf (step (State.reset.withFetchWord 8 0x3B))).map State.o = some [0x00, 0x00] := by decide
/-- Program 1: the masked text frame decodes to "Hello", 11 bytes consumed. -/
theorem test_decode_frame_hello :
    (match decodeFrame [0x81, 0x85, 0x37, 0xFA, 0x21, 0x3D, 0x7F, 0x9F, 0x4D, 0x51, 0x58] State.reset with
      | .next (r, _) => some r
      | _ => none) = some (.frame true 1#4 hello 11) := by decide

/-! ### Witnesses: for every statement with hypotheses, a state and operands that meet them all

Lengths at the boundaries of their ranges; long buffers are `List.replicate`. -/

/-- A command with empty operands. -/
def cmdOf (w : Byte) (a : Buffer := []) : Command := { cmd := w, b0 := 0#8, a := a, k := [] }

/-- A state with one request pending. -/
def pend (r : Request) : State := { State.reset with pending := [r] }

theorem length_st_replicate (n : Nat) : (st (List.replicate n 3#8)).a.length = n := List.length_replicate

theorem witness_DecodeEncodeAgree :
    (Instr.buildErrPl true true false).wellFormed = true ∧ (Instr.buildErrPl true true false).isFinal = true ∧
    (Instr.buildErrPl true true false).admits 0 = true ∧ (Instr.buildS true).admits 125 = true ∧
    (Instr.buildM true).admits 126 = true ∧ (Instr.buildM true).admits 65534 = true ∧
    (Instr.buildL true).admits 65535 = true ∧ Instr.hdr2Bad.admits 13 = true ∧
    Instr.hdr2.kind = .operation := by decide
theorem witness_EncodeDecodeAgree : decode 0x3F#8 65534 = .ok (.buildM true) := by decide
theorem witness_StepRefusesExactlyReservedWords_refused :
    (pend (.command (cmdOf 0x04#8))).pending = .command (cmdOf 0x04#8) :: [] ∧
    (0x04#8).extractLsb' 0 2 ≠ 0b11#2 ∧ (0x04#8).extractLsb' 2 4 ≠ 0#4 := by decide
theorem witness_StepRefusesExactlyReservedWords_next :
    (pend (.command (cmdOf 0x3F#8))).pending = .command (cmdOf 0x3F#8) :: [] ∧
    (0x3F#8).extractLsb' 6 2 = 0#2 ∧ (0x3F#8).extractLsb' 0 2 = 0b11#2 := by decide
theorem witness_StepRunsDecodedInstruction :
    (pend (.command (cmdOf 0x01#8 [1, 2]))).pending = .command (cmdOf 0x01#8 [1, 2]) :: [] ∧
    decode (cmdOf 0x01#8 [1, 2]).cmd (cmdOf 0x01#8 [1, 2]).a.length = .ok .hdr2L16 := by decide
theorem witness_ResetSetsSeedToSeedReset : (pend .reset).pending = .reset :: [] := rfl
theorem witness_IdleStepKeepsSeed : State.reset.pending = [] := rfl
theorem witness_OnlySeedOutlivesATransaction :
    State.reset.seed = (st [1] [2] 3).seed ∧ State.reset.pending = (st [1] [2] 3).pending ∧
    State.reset.draws = (st [1] [2] 3).draws ∧ State.reset.a ≠ (st [1] [2] 3).a := ⟨rfl, rfl, rfl, by decide⟩
theorem witness_Hdr1ParsesExactlyTwoBytes :
    (st [0xFF, 0xFF]).a = [0xFF#8, 0xFF#8] ∧ (st [0x81]).a.length ≠ 2 ∧ (st [0x81, 5, 0]).a.length ≠ 2 := by decide
theorem witness_Hdr1IgnoresUnnamedBits :
    (0xF1#8).getLsbD 7 = (0x81#8).getLsbD 7 ∧ (0xF1#8).extractLsb' 0 4 = (0x81#8).extractLsb' 0 4 := by decide
theorem witness_Hdr2L16ReadsLittleEndianLength : (st [0, 0]).a = [0#8, 0#8] ∧ (st [0xFF, 0xFF]).a = [0xFF#8, 0xFF#8] := by decide
theorem witness_Hdr2KReturnsTheFourBytes : (st [0, 0, 0, 0]).a = [0#8, 0#8, 0#8, 0#8] := by decide
theorem witness_Hdr2L16KReadsLengthAndKey : (st [0, 0, 1, 2, 3, 4]).a = [0#8, 0#8, 1#8, 2#8, 3#8, 4#8] := by decide
theorem witness_Hdr2L31ReadsThirtyOneBits :
    (st [0, 0, 0, 0x80, 1, 2, 3, 4]).a = [0#8, 0#8, 0#8, 0x80#8, 1#8, 2#8, 3#8, 4#8] := by decide
theorem witness_Hdr2L31KReadsLengthAndKey :
    (st [0, 0, 0, 0, 0, 0, 0, 0, 1, 2, 3, 4]).a = [0#8, 0, 0, 0, 0, 0, 0, 0, 1, 2, 3, 4] := by decide
theorem witness_Hdr2BadIsAbsent :
    (st [1, 2, 3]).a.length = 3 ∧ (st []).a.length = 0 ∧ (st (List.replicate 13 1)).a.length = 13 := by decide
theorem witness_Hdr2IsItsSelectedForm : decode 0x01#8 (st [1, 2]).a.length = .ok .hdr2L16 := by decide
theorem witness_ExtendedLengthRange_16 :
    ∃ t, exec .hdr2L16 (st [1, 0]) = .next t ∧ t.extLen = some 1#31 := ⟨_, rfl, by decide⟩
theorem witness_ExtendedLengthRange_31 :
    ∃ t, exec .hdr2L31K (st (List.replicate 12 0xFF)) = .next t ∧ t.extLen = some 2147483647#31 := ⟨_, rfl, by decide⟩
theorem witness_XmaskAppliesTheRollingKey :
    (st [1] [1, 2, 3, 4]).k.length = 4 ∧ (st [1] [1, 2, 3, 4]).a ≠ [] ∧
    (st [1] [1, 2, 3]).k.length ≠ 4 ∧ (st [] [1, 2, 3, 4]).a = [] := by decide
theorem witness_XmaskIsItsOwnInverse : (st [1] [1, 2, 3, 4]).k.length = 4 ∧ 1 ≤ (st [1] [1, 2, 3, 4]).a.length := by decide
theorem witness_XmaskKeyCornerCases :
    (st [1] [0, 0, 0, 0]).k = [0x00#8, 0x00#8, 0x00#8, 0x00#8] ∧ (st [1] [0, 0, 0, 0]).a ≠ [] ∧
    (st [1] [0xFF, 0xFF, 0xFF, 0xFF]).k = [0xFF#8, 0xFF#8, 0xFF#8, 0xFF#8] ∧ (st [1] [1, 2, 3, 4, 5]).k.length ≠ 4 := by decide
theorem witness_WideMaskEqualsXmask :
    0 < 4 ∧ 4 % 4 = 0 ∧ (st [1, 2, 3, 4, 5] [1, 2, 3, 4]).k = keyBytes ⟨1, 2, 3, 4⟩ ∧ (st [1, 2, 3, 4, 5] [1, 2, 3, 4]).a ≠ [] := by decide
theorem witness_SplitPayloadWithRotatedKey :
    ([1, 2, 3, 4] : Buffer).length = 4 ∧ ([1, 2, 3] : Buffer) ≠ [] ∧ ([4] : Buffer) ≠ [] := by decide
theorem witness_BuildSEmitsShortFrame : (st []).a.length ≤ 125 ∧ (st (List.replicate 125 (3#8))).a.length ≤ 125 :=
  ⟨by decide, by rw [length_st_replicate]⟩
theorem witness_BuildMEmitsBigEndianLength :
    (126 ≤ (st (List.replicate 126 (3#8))).a.length ∧ (st (List.replicate 126 (3#8))).a.length ≤ 65534) ∧
    (126 ≤ (st (List.replicate 65534 (3#8))).a.length ∧ (st (List.replicate 65534 (3#8))).a.length ≤ 65534) := by
  simp only [length_st_replicate]; decide
theorem witness_BuildLEmitsSixByteLength : 65535 ≤ (st (List.replicate 65535 (3#8))).a.length := by
  rw [length_st_replicate]
theorem witness_BuildErrChangesNothing :
    Instr.buildErrMk true true true = .buildErrMk true true true ∨
    Instr.buildErrMk true true true = .buildErrB0 true true true ∨
    Instr.buildErrMk true true true = .buildErrPl true true true := .inl rfl
theorem witness_BuildFollowsTheSevenSteps : false = false ∨ true = false ∨ true = false := .inl rfl
theorem witness_BuildIsItsSelectedForm :
    decode (buildWord true true true true) (st []).a.length = .ok (.buildS true) := by decide
theorem witness_EmptyMaskedFrameIsHeaderAndKey : (st []).a = [] := rfl
theorem witness_OnlyMaskedBuildWritesSeed : ∃ t, exec (.buildS true) (st []) = .next t := ⟨_, rfl⟩
theorem witness_SeedDoesNotAffectOtherOperations :
    drawsKey (.buildS false) = false ∧ ∃ t, exec (.buildS false) (st []) = .next t := ⟨rfl, _, rfl⟩
theorem witness_KeyDependsOnCountOfMaskedFrames :
    (∀ d ∈ [cmdOf 0x3F#8, cmdOf 0x00#8], d.legal = true) ∧ (cmdOf 0x3F#8).cmd = 0x3F#8 ∧
    ({ State.reset with pending := ([cmdOf 0x3F#8, cmdOf 0x00#8] ++ [cmdOf 0x3F#8]).map Request.command } : State).pending =
      ([cmdOf 0x3F#8, cmdOf 0x00#8] ++ [cmdOf 0x3F#8]).map Request.command := by decide
theorem witness_DispatchTable : (125#7).toNat ≤ 125 := by decide
theorem witness_ResolvedLengthCases : (125#7).toNat ≤ 125 ∧ 126 ≤ (126#7).toNat := by decide
theorem witness_ShortFramesRoundTrip : ([] : Buffer).length ≤ 125 ∧ (List.replicate 125 (3#8)).length ≤ 125 :=
  ⟨by decide, by rw [List.length_replicate]⟩
theorem witness_MediumFramesDecodeToSwappedLength :
    (126 ≤ (List.replicate 126 (3#8)).length ∧ (List.replicate 126 (3#8)).length ≤ 65534) ∧
    (126 ≤ (List.replicate 65534 (3#8)).length ∧ (List.replicate 65534 (3#8)).length ≤ 65534) := by
  simp only [List.length_replicate]; decide
theorem witness_LongFramesDecodeToReversedLength : 65535 ≤ (List.replicate 65535 (3#8)).length := by
  rw [List.length_replicate]
theorem witness_StepKeepsRecordAgreement :
    let s := { pend (.command (cmdOf 0x3F#8)) with served := some (cmdOf 0x00#8) }
    s.recordAgrees ∧ ∃ t, step s = .next t ∧ t.served = some (cmdOf 0x3F#8) :=
  ⟨by rintro c h; cases h; exact ⟨by decide, by simp [State.agreesWith, pend, State.reset, cmdOf, cmdOp]⟩, _, rfl, rfl⟩
theorem witness_FailuresArePrecise : ∃ t, exec .hdr1 (st []) = .next t ∧ t.status ≠ 0b00#2 := ⟨_, rfl, by decide⟩
theorem witness_FailuresEmitNothing :
    (st [1]).a.length ≠ 2 ∧ (st [1]).a.length ∉ [2, 4, 6, 8, 12] ∧ (st [1] [1, 2, 3, 4, 5]).k.length ≠ 4 ∧
    (st [] [1, 2, 3, 4]).a = [] ∧ (false && true && true) = false := by decide
theorem witness_EveryLegalRequestIsServed : (pend (.command (cmdOf 0x3F#8))).servable = true := by decide
theorem witness_WireRowsAreNoCommands : decode 0x00#8 0 = .ok .hdr1 := by decide
theorem witness_UnselectedFormsAreRefused :
    Instr.hdr2L16.admits (st [1, 2, 3]).a.length = false ∧ (Instr.buildM true).admits (st []).a.length = false := by decide

end Sys2Proof.Tests
end

section
/-! PROOFS. What outlives a transaction: SEED, who writes it, who reads it, and that no transient register is read
before it is written; the end of a failed operation (R20, R26, R30, R154). -/

namespace Sys2Proof.Machine

/-! ### Who writes SEED -/

/-- Settles O35: `exec_seed`, the law that says once what every instruction leaves in SEED. -/
theorem onlyMaskedBuildWritesSeed : Obligations.OnlyMaskedBuildWritesSeed :=
  fun _ _ _ h => exec_seed h

/-! ### Who reads SEED -/

/-- The state with another value in SEED. -/
def State.withSeed (v : Seed) (s : State) : State := { s with seed := v }

/-- A form row is selected by the length of A, whatever SEED is. -/
theorem whenSelected_withSeed {i : Instr} {s t t' : State} {v : Seed} (h : t' = t.withSeed v) :
    whenSelected i (s.withSeed v) t' = afterward (whenSelected i s t) fun u => .next (u.withSeed v) := by
  subst h
  cases ha : i.admits s.a.length
  · rw [whenSelected_of_not_admits ha, whenSelected_of_not_admits (s := s.withSeed v) ha]
    rfl
  · rw [whenSelected_of_admits ha, whenSelected_of_admits (s := s.withSeed v) ha]
    rfl

/-- A raw frame neither reads nor writes SEED (step 7 of R141). -/
theorem State.returnFrame_withSeed (code : BitVec 7) (field : Buffer) (s : State) (v : Seed) :
    (s.withSeed v).returnFrame config false code field = (s.returnFrame config false code field).withSeed v := rfl

/-- BUILD reads SEED in a masked frame alone: not for a raw frame, and not with an argument missing. -/
theorem execBuild_withSeed {k b p m : Bool} (h : (k && b && p && m) = false) (s : State) (v : Seed) :
    execBuild k b p m (s.withSeed v) = afterward (execBuild k b p m s) fun t => .next (t.withSeed v) := by
  cases hp : k && b && p
  · simp only [execBuild, hp]
    rfl
  · obtain rfl : m = false := by simpa [hp] using h
    simp only [execBuild, hp, State.returnFrame_withSeed]
    rfl

/-- An instruction that draws no key carries another SEED through unread and unwritten (R20, R154). -/
theorem exec_withSeed {i : Instr} (h : drawsKey i = false) (s : State) (v : Seed) :
    exec i (s.withSeed v) = afterward (exec i s) fun t => .next (t.withSeed v) := by
  cases i with
  | hdr1 | hdr2 | xmask =>
    simp only [exec, execHdr1, execHdr2, execXmask, State.withSeed]
    split <;> rfl
  | build k b p m => exact execBuild_withSeed h s v
  | hdr2L16 | hdr2K | hdr2L16K | hdr2L31 | hdr2L31K | hdr2Bad => exact whenSelected_withSeed rfl
  | buildS m | buildM m | buildL m =>
    obtain rfl : m = false := h
    exact whenSelected_withSeed (State.returnFrame_withSeed _ _ s v)
  | buildErrMk | buildErrB0 | buildErrPl | wireByte0 | wireByte1 => rfl

/-- Settles O36: `exec_withSeed`, on an instruction that answers a next state. -/
theorem seedDoesNotAffectOtherOperations : Obligations.SeedDoesNotAffectOtherOperations := by
  intro i s t v hi h
  calc exec i (s.withSeed v)
    _ = afterward (exec i s) fun u => .next (u.withSeed v) := exec_withSeed hi s v
    _ = .next (t.withSeed v) := by rw [h]; rfl

/-! ### Nothing but SEED outlives a transaction -/

/-- The state without what the last transaction left in O, the result record, the key index and the phase. -/
def State.forgetResult (s : State) : State :=
  { s with o := [], status := 0#2, hdr := none, extLen := none, key := none, payValid := false, errArgs := false,
           kp := 0#2, ph := .hdr }

/-- A frame is built from the operands and SEED: `State.begin` overwrites what the last transaction left, all but
the status, and `State.finish` overwrites that. -/
theorem State.returnFrame_forgetResult (cfg : Config) (m : Bool) (code : BitVec 7) (field : Buffer) (s : State) :
    s.forgetResult.returnFrame cfg m code field = s.returnFrame cfg m code field := by
  cases s
  cases m <;> rfl

/-- No instruction reads what the last transaction left: its meaning looks at the operands, and every way a
transaction ends overwrites the rest. -/
theorem exec_forgetResult (i : Instr) (s : State) : exec i s.forgetResult = exec i s := by
  cases i with
  | build k b p m => simp only [exec, execBuild, State.returnFrame_forgetResult]; rfl
  | buildS m => exact congrArg (whenSelected _ s) (s.returnFrame_forgetResult config m _ _)
  | buildM m => exact congrArg (whenSelected _ s) (s.returnFrame_forgetResult config m _ _)
  | buildL m => exact congrArg (whenSelected _ s) (s.returnFrame_forgetResult config m _ _)
  | _ => rfl

/-- Once a command is taken, only SEED and the counter of undefined values are left of the state before. -/
theorem State.takeCommand_forgetResult_congr {s s' : State} (c : Command) (rest : List Request)
    (hseed : s.seed = s'.seed) (hdraws : s.draws = s'.draws) :
    (s.takeCommand c rest).forgetResult = (s'.takeCommand c rest).forgetResult := by
  simp [State.forgetResult, hseed, hdraws]

theorem State.lapse_congr {s s' : State} (hseed : s.seed = s'.seed) (hpending : s.pending = s'.pending)
    (hdraws : s.draws = s'.draws) : s.lapse = s'.lapse := by
  simp [State.lapse, hseed, hpending, hdraws]

/-- Settles O50, by what is pending: two idle states or two resets lapse alike, and two states that take one
command run one instruction, which does not read where they differ. -/
theorem onlySeedOutlivesATransaction : Obligations.OnlySeedOutlivesATransaction := by
  intro s s' hseed hpending hdraws
  have hlapse := State.lapse_congr hseed hpending hdraws
  match hp : s.pending, hp' : s'.pending, hpending with
  | [], _, rfl => rw [step_idle hp, step_idle hp', hlapse]
  | .reset :: rest, _, rfl =>
    rw [step_reset hp, step_reset hp', State.takeReset, State.takeReset, hlapse]
  | .command c :: rest, _, rfl =>
    cases hd : decode c.cmd c.a.length with
    | error e => rw [step_refused hp hd, step_refused hp' hd]
    | ok i =>
      calc step s
        _ = exec i (s.takeCommand c rest).forgetResult := by rw [step_command hp hd, exec_forgetResult]
        _ = exec i (s'.takeCommand c rest).forgetResult := by
          rw [State.takeCommand_forgetResult_congr c rest hseed hdraws]
        _ = step s' := by rw [step_command hp' hd, exec_forgetResult]

/-! ### Between transactions and after reset -/

/-- Settles O8: an idle step is `State.lapse`, which keeps SEED and the queue and ends the standing result. -/
theorem idleStepKeepsSeed : Obligations.IdleStepKeepsSeed :=
  fun s h => ⟨s.lapse, step_idle h, State.lapse_seed s, h, State.lapse_served s⟩

/-- Where no result stands there is nothing to agree with. -/
theorem State.recordAgrees_of_served_none {s : State} (h : s.served = none) : s.recordAgrees := by
  intro c hc
  rw [h] at hc
  cases hc

/-- Settles O44: no result stands after reset. -/
theorem resetRecordAgrees : Obligations.ResetRecordAgrees :=
  ⟨rfl, State.recordAgrees_of_served_none rfl⟩

/-! ### A failed operation emits nothing -/

theorem exec_hdr2_reject {s : State} (h : s.a.length ∉ [2, 4, 6, 8, 12]) :
    exec .hdr2 s = .next s.rejectExtended := by
  rcases exec_hdr2_cases s with ⟨_, _, -, -, hadmitted, -⟩ | ⟨he, -⟩
  · exact absurd hadmitted h
  · exact he

theorem exec_hdr2Bad_reject {s : State} (h : s.a.length ∉ [2, 4, 6, 8, 12]) :
    exec .hdr2Bad s = .next s.rejectExtended :=
  whenSelected_of_admits (by simpa [Instr.admits, and_assoc] using h)

/-- Settles O46: each failure is its operation's one rejection, and every rejection leaves O empty. -/
theorem failuresEmitNothing : Obligations.FailuresEmitNothing := fun s =>
  ⟨fun ha => ⟨_, exec_hdr1_reject ha, State.rejectHeader_o s⟩,
   fun ha => ⟨⟨_, exec_hdr2_reject ha, State.rejectExtended_o s⟩, _, exec_hdr2Bad_reject ha, State.rejectExtended_o s⟩,
   fun hx => ⟨_, exec_xmask_reject hx, State.rejectMask_o s⟩,
   fun _ _ _ m hp => ⟨_, exec_build_missing m hp, State.rejectArguments_o s⟩⟩

end Sys2Proof.Machine
end

section
/-! PROOFS. The step takes the oldest pending command and runs what it decodes to (R50, R52, R77). -/

namespace Sys2Proof.Machine

/-- Settles O6: `step_command`, where `State.takeCommand` is the load of the operands that the statement writes out. -/
theorem stepRunsDecodedInstruction : Obligations.StepRunsDecodedInstruction := by
  intro s c rest i hpending hdecode
  calc step s
    _ = exec i (s.takeCommand c rest) := step_command hpending hdecode
    _ = exec i { s with cmd := c.cmd, b0 := c.b0, a := c.a, k := c.k, pending := rest, served := some c } := by
      rw [State.takeCommand]

end Sys2Proof.Machine
end

section
/-! PROOFS. The reading of a command word: the rows a word and an a_len can decode to, and the words that spell no
operation (R76, R77, R80). -/

namespace Sys2Proof

/-! ### The operation row behind a form row -/

/-- The operation row that a form row refines: the present bits a BUILD row fixes are filled in (R77). -/
def Instr.operationRow : Instr → Instr
  | .hdr2L16 | .hdr2K | .hdr2L16K | .hdr2L31 | .hdr2L31K | .hdr2Bad => .hdr2
  | .buildS m | .buildM m | .buildL m => .build true true true m
  | .buildErrMk b p m => .build false b p m
  | .buildErrB0 k p m => .build k false p m
  | .buildErrPl k b m => .build k b false m
  | i => i

/-- A form row has its operation's word: the two differ in the a_len column alone. -/
@[simp] theorem encode_operationRow (i : Instr) : encode i.operationRow = encode i := by
  cases i <;> rfl

theorem Instr.kind_operationRow {i : Instr} (h : i.isFinal = true) : i.operationRow.kind = .operation := by
  cases i with
  | wireByte0 | wireByte1 => cases h
  | _ => rfl

/-- What a decoder may answer at an a_len: a well-formed final row that admits the length. -/
def Instr.IsReadAt (i : Instr) (n : Nat) : Prop :=
  i.wellFormed = true ∧ i.isFinal = true ∧ i.admits n = true

theorem hdr2Form_isReadAt (n : Nat) : (hdr2Form n).operationRow = .hdr2 ∧ (hdr2Form n).IsReadAt n := by
  unfold hdr2Form
  split_ifs <;> exact ⟨rfl, rfl, rfl, by simp [Instr.admits, *]⟩

theorem buildForm_isReadAt (k b p m : Bool) (n : Nat) :
    (buildForm k b p m n).operationRow = .build k b p m ∧ (buildForm k b p m n).IsReadAt n := by
  match k, b, p with
  | false, _, _ | true, false, _ | true, true, false => exact ⟨rfl, rfl, rfl, rfl⟩
  | true, true, true =>
    simp only [buildForm, Bool.true_eq_false, if_false]
    split_ifs <;> exact ⟨rfl, rfl, rfl, by simp [Instr.admits]; omega⟩

/-- Refining an operation row by length gives one of its readings at that length. -/
theorem refineByLength_isReadAt {j : Instr} (hj : j.kind = .operation) (n : Nat) :
    (refineByLength j n).operationRow = j ∧ (refineByLength j n).IsReadAt n := by
  cases j with
  | hdr1 | xmask => exact ⟨rfl, rfl, rfl, rfl⟩
  | hdr2 => exact hdr2Form_isReadAt n
  | build k b p m => exact buildForm_isReadAt k b p m n
  | _ => cases hj

/-- A row is the only reading of its operation at a length: the conditions of the form rows exclude one another, and
well-formedness keeps one of the overlapping BUILD.ERR rows (log entry 18). -/
theorem refineByLength_operationRow {i : Instr} {n : Nat} (h : i.IsReadAt n) :
    refineByLength i.operationRow n = i := by
  obtain ⟨hwf, hfinal, hadmits⟩ := h
  cases i with
  | hdr1 | xmask | buildErrMk => rfl
  | hdr2 | build | wireByte0 | wireByte1 => cases hfinal
  | hdr2L16 | hdr2K | hdr2L16K | hdr2L31 | hdr2L31K =>
    obtain rfl := beq_iff_eq.1 hadmits
    rfl
  | hdr2Bad =>
    simp only [Instr.admits, Bool.not_eq_true', Bool.or_eq_false_iff, beq_eq_false_iff_ne] at hadmits
    simp [Instr.operationRow, refineByLength, hdr2Form, hadmits]
  | buildS m => exact if_pos (of_decide_eq_true hadmits)
  | buildM m =>
    simp only [Instr.admits, Bool.and_eq_true, decide_eq_true_eq] at hadmits
    exact (if_neg (by omega)).trans (if_pos hadmits.2)
  | buildL m =>
    have hlong : 65535 ≤ n := of_decide_eq_true hadmits
    exact (if_neg (by omega)).trans (if_neg (by omega))
  | buildErrB0 k p m =>
    obtain rfl : k = true := hwf
    rfl
  | buildErrPl k b m =>
    obtain ⟨rfl, rfl⟩ : k = true ∧ b = true := by simpa [Instr.wellFormed] using hwf
    rfl

/-! ### The header bytes as rows -/

theorem decodeWireByte0_encode (f : Bool) (r : BitVec 3) (o : BitVec 4) :
    decodeWireByte0 (encode (.wireByte0 f r o)) = .wireByte0 f r o := by
  revert f r o; decide

theorem decodeWireByte1_encode (m : Bool) (l : BitVec 7) :
    decodeWireByte1 (encode (.wireByte1 m l)) = .wireByte1 m l := by
  simp [decodeWireByte1, encode]

theorem encode_decodeWireByte0 (x : Byte) : encode (decodeWireByte0 x) = x := by
  revert x; decide

theorem encode_decodeWireByte1 (y : Byte) : encode (decodeWireByte1 y) = y := by
  revert y; decide

end Sys2Proof

namespace Sys2Proof.Machine

/-! ### Decode and encode agree -/

/-- The word of an operation row decodes to the form of it that a_len selects. -/
theorem decode_encode_operation {j : Instr} (hj : j.kind = .operation) (n : Nat) :
    decode (encode j) n = .ok (refineByLength j n) :=
  decode_ok.2 ⟨j, decodeOperation_encode hj, rfl⟩

theorem decode_buildWord (k b p m : Bool) (n : Nat) : decode (buildWord k b p m) n = .ok (buildForm k b p m n) :=
  decode_encode_operation (j := .build k b p m) rfl n

/-- The decoder said once: a word reads as exactly the rows that have it and may be read at this a_len. -/
theorem decode_eq_ok_iff {w : Byte} {n : Nat} {i : Instr} :
    decode w n = .ok i ↔ encode i = w ∧ i.IsReadAt n := by
  constructor
  · intro h
    obtain ⟨j, hj, rfl⟩ := decode_ok.1 h
    obtain ⟨hword, hkind⟩ := decodeOperation_ok hj
    obtain ⟨hrow, hread⟩ := refineByLength_isReadAt hkind n
    refine ⟨?_, hread⟩
    rw [← encode_operationRow, hrow, hword]
  · rintro ⟨rfl, hread⟩
    have ⟨_, hfinal, _⟩ := hread
    calc decode (encode i) n
      _ = decode (encode i.operationRow) n := by rw [encode_operationRow]
      _ = .ok (refineByLength i.operationRow n) := decode_encode_operation (Instr.kind_operationRow hfinal) n
      _ = .ok i := by rw [refineByLength_operationRow hread]

/-- Settles O1: `decode_eq_ok_iff` from right to left, on command words. -/
theorem decodeEncodeAgree : Obligations.DecodeEncodeAgree :=
  ⟨fun _ _ hwf hfinal hadmits => decode_eq_ok_iff.2 ⟨rfl, hwf, hfinal, hadmits⟩,
   fun _ => decodeOperation_encode, decodeWireByte0_encode, decodeWireByte1_encode⟩

/-- Settles O2: `decode_eq_ok_iff` from left to right, on command words. -/
theorem encodeDecodeAgree : Obligations.EncodeDecodeAgree :=
  ⟨fun _ _ _ => decode_eq_ok_iff.1, fun x => ⟨encode_decodeWireByte0 x, encode_decodeWireByte1 x⟩⟩

/-- Settles O3, by running the decoder on the eleven words. -/
theorem sampleCommandWordsDecode : Obligations.SampleCommandWordsDecode := by
  unfold Obligations.SampleCommandWordsDecode
  decide

/-- Settles O4: each word is an operation row's, so it decodes to `hdr2Form` or `buildForm`, whose tests the statement
writes out. -/
theorem formsAreSelectedByLength : Obligations.FormsAreSelectedByLength :=
  ⟨decode_encode_operation (j := .hdr2) rfl, decode_buildWord true true true false,
   decode_buildWord true true true true, decode_buildWord false, decode_buildWord true false,
   decode_buildWord true true false⟩

/-! ### Words that spell no operation -/

/-- R80's condition on a command word: CMD[7:6] is 0, and CMD[5:2] is 0 unless op is BUILD's. -/
def SpellsOperation (w : Byte) : Prop := cmdReserved w = 0#2 ∧ (cmdOp w = 0b11#2 ∨ cmdBuildBits w = 0#4)

theorem not_spellsOperation {w : Byte} :
    ¬ SpellsOperation w ↔ cmdReserved w ≠ 0#2 ∨ (cmdOp w ≠ 0b11#2 ∧ cmdBuildBits w ≠ 0#4) := by
  rw [SpellsOperation, not_and_or, not_or]

/-- The decoder reads exactly the words that R80 does not reserve. -/
theorem exists_decodeOperation_ok {w : Byte} : (∃ i, decodeOperation w = .ok i) ↔ SpellsOperation w := by
  unfold decodeOperation SpellsOperation
  split_ifs <;> simp_all

theorem exists_decode_ok {w : Byte} {n : Nat} : (∃ i, decode w n = .ok i) ↔ SpellsOperation w := by
  rw [← exists_decodeOperation_ok]
  constructor
  · rintro ⟨_, h⟩
    obtain ⟨j, hj, -⟩ := decode_ok.1 h
    exact ⟨j, hj⟩
  · rintro ⟨j, hj⟩
    exact ⟨_, decode_ok.2 ⟨j, hj, rfl⟩⟩

/-- A step that takes a command runs it if its word spells an operation, and refuses it otherwise. -/
theorem step_command_cases {s : State} {c : Command} {rest : List Request} (h : s.pending = .command c :: rest) :
    (SpellsOperation c.cmd ∧ ∃ t, step s = .next t) ∨ (¬ SpellsOperation c.cmd ∧ ∃ r, step s = .refused r) := by
  cases hd : decode c.cmd c.a.length with
  | ok i =>
    obtain ⟨t, ht⟩ := exec_decoded_total (s := s.takeCommand c rest) hd
    exact .inl ⟨exists_decode_ok.1 ⟨i, hd⟩, t, (step_command h hd).trans ht⟩
  | error e =>
    refine .inr ⟨fun hw => ?_, _, step_refused h hd⟩
    obtain ⟨i, hi⟩ := exists_decode_ok.2 hw
    rw [hd] at hi
    cases hi

/-- Settles O5: the two ways of `step_command_cases` exclude each other. -/
theorem stepRefusesExactlyReservedWords : Obligations.StepRefusesExactlyReservedWords := by
  intro s c rest h
  change ((∃ r, step s = .refused r) ↔
      cmdReserved c.cmd ≠ 0#2 ∨ (cmdOp c.cmd ≠ 0b11#2 ∧ cmdBuildBits c.cmd ≠ 0#4)) ∧
    ((∃ t, step s = .next t) ↔ SpellsOperation c.cmd)
  rw [← not_spellsOperation]
  rcases step_command_cases h with ⟨hw, t, ht⟩ | ⟨hw, r, hr⟩
  · simp [hw, ht]
  · simp [hw, hr]

/-! ### A form does what its operation does -/

/-- The form that an operation's word decodes to at the length of A does what the operation does. -/
theorem exec_of_decode_encode {i j : Instr} {s : State} (hj : j.kind = .operation)
    (h : decode (encode j) s.a.length = .ok i) : exec i s = exec j s := by
  rw [decode_encode_operation hj] at h
  cases h
  exact exec_refineByLength j s

/-- HDR2 answers a next state on every A, keeps SEED and the operands, and has the status its outputs give (R31). -/
theorem exec_hdr2_frame (s : State) :
    ∃ t, exec .hdr2 s = .next t ∧ t.seed = s.seed ∧ s.keepsOperands t ∧
      t.status = (if t.extLen.isNone && t.key.isNone then 0b01#2 else 0b00#2) := by
  rcases exec_hdr2_cases s with ⟨l, k, he, -⟩ | ⟨he, -⟩
  · exact ⟨_, he, State.returnExtended_seed l k s, State.returnExtended_keeps l k s, State.returnExtended_status l k s⟩
  · exact ⟨_, he, State.rejectExtended_seed s, State.rejectExtended_keeps s, State.rejectExtended_status s⟩

/-- Settles O17: 0x01 is HDR2's word, and `exec_hdr2_frame` says what HDR2 leaves. -/
theorem hdr2IsItsSelectedForm : Obligations.Hdr2IsItsSelectedForm :=
  fun s _ h => ⟨exec_of_decode_encode (j := .hdr2) rfl h, exec_hdr2_frame s⟩

/-- Settles O29, by `exec_of_decode_encode` on BUILD's row. -/
theorem buildIsItsSelectedForm : Obligations.BuildIsItsSelectedForm :=
  fun _ k b p m _ h => exec_of_decode_encode (j := .build k b p m) rfl h

/-! ### Rows that exec refuses by name -/

/-- No command word decodes to a WIRE row: the decoder answers final rows alone. -/
theorem kind_of_decode {w : Byte} {n : Nat} {i : Instr} (h : decode w n = .ok i) : i.kind ≠ .wire := by
  obtain ⟨-, -, hfinal, -⟩ := decode_eq_ok_iff.1 h
  cases i with
  | wireByte0 | wireByte1 => cases hfinal
  | _ => simp [Instr.kind]

/-- Settles O48: the meaning of a WIRE row is its refusal, and `kind_of_decode`. -/
theorem wireRowsAreNoCommands : Obligations.WireRowsAreNoCommands :=
  ⟨fun _ _ _ _ => rfl, fun _ _ _ => rfl, fun _ _ _ => kind_of_decode⟩

/-- Settles O49: a row with a condition on a_len is guarded by `whenSelected`, and every other row admits all lengths. -/
theorem unselectedFormsAreRefused : Obligations.UnselectedFormsAreRefused := by
  intro s i h
  cases i with
  | hdr2L16 | hdr2K | hdr2L16K | hdr2L31 | hdr2L31K | hdr2Bad | buildS | buildM | buildL =>
    exact whenSelected_of_not_admits h
  | _ => cases h

end Sys2Proof.Machine
end

section
/-! PROOFS. FrameHeaderParser: what HDR1 answers on every length, the bits of byte 0 it does not read, and its inverse
relation to BUILD (R101, R103, R104, R105). -/

namespace Sys2Proof.Machine

/-! ### What HDR1 answers -/

/-- Settles O9: 0x00 is HDR1's word, and HDR1 has one end on 2 bytes and another on every other length. -/
theorem hdr1ParsesExactlyTwoBytes : Obligations.Hdr1ParsesExactlyTwoBytes := by
  refine ⟨decode_encode_operation (j := .hdr1) rfl, fun s x y ha => ?_, fun s ha => ?_⟩
  · exact ⟨_, exec_hdr1_pair ha, State.returnHeader_hdr _ s, State.returnHeader_status _ s,
      State.returnHeader_seed _ s, State.returnHeader_keeps _ s⟩
  · exact ⟨_, exec_hdr1_reject ha, State.rejectHeader_hdr s, State.rejectHeader_status s,
      State.rejectHeader_seed s, State.rejectHeader_keeps s⟩

/-! ### The bits of byte 0 that HDR1 does not read -/

/-- Byte 0 enters the header through FIN and the opcode alone (R104). -/
theorem parseHeader_congr {x x' : Byte} (hfin : byte0Fin x = byte0Fin x') (hopcode : byte0Opcode x = byte0Opcode x')
    (y : Byte) : parseHeader x y = parseHeader x' y := by
  rw [parseHeader, parseHeader, hfin, hopcode]

/-- Settles O10, by `parseHeader_congr`: the two runs return one header. -/
theorem hdr1IgnoresUnnamedBits : Obligations.Hdr1IgnoresUnnamedBits := by
  intro s x x' y hfin hopcode
  refine ⟨_, _, exec_hdr1_pair rfl, exec_hdr1_pair rfl, ?_, rfl, Option.some_ne_none _, rfl⟩
  exact congrArg some (parseHeader_congr hfin hopcode y)

/-! ### HDR1 on the header that BUILD emits -/

/-- A frame begins with B0 and the byte that packs the mask flag and the code (steps 1 and 3 of R141). -/
theorem State.returnFrame_o_take_two (m : Bool) (code : BitVec 7) (field : Buffer) (s : State) :
    (s.returnFrame config m code field).o.take 2 = [s.b0, encodeByte1 m code] := by
  rw [State.returnFrame_o]
  rfl

/-- Unpacking byte 1 gives back the mask flag and the code that were packed into it. -/
theorem parseHeader_encodeByte1 (x : Byte) (m : Bool) (code : BitVec 7) :
    parseHeader x (encodeByte1 m code) = ⟨byte0Fin x, byte0Opcode x, code, m⟩ := by
  rw [parseHeader, byte1LenCode_encodeByte1, byte1Mask_encodeByte1]

/-- The code as the word of the number that `lenCode_toNat` gives (R75). -/
theorem lenCode_eq_ofNat (n : Nat) :
    lenCode n = BitVec.ofNat 7 (if n ≤ 125 then n else if n < 65535 then 126 else 127) := by
  rw [← lenCode_toNat, BitVec.ofNat_toNat, BitVec.setWidth_eq]

/-- Settles O32: the frame's first two bytes are B0 and `encodeByte1` of the mask flag and the code, and
`parseHeader_encodeByte1` unpacks them. -/
theorem builtHeaderParsesBack : Obligations.BuiltHeaderParsesBack := by
  intro s m
  refine ⟨_, _, exec_build_present s m, exec_hdr1_pair (State.returnFrame_o_take_two m _ _ s), ?_⟩
  rw [State.returnHeader_hdr, parseHeader_encodeByte1, ← lenCode_eq_ofNat]
  rfl

end Sys2Proof.Machine
end

section
/-! PROOFS. ExtendedFieldParser: what each form of HDR2 answers on the length that selects it, and the range of the
length output (R112 to R118, R121). -/

namespace Sys2Proof.Machine

/-! ### Present lengths -/

theorem presentLength_eq_some {l l' : BitVec 31} : presentLength l = some l' ↔ l = l' ∧ l ≠ 0#31 := by
  unfold presentLength
  split <;> simp_all

theorem presentLength_isNone (l : BitVec 31) : (presentLength l).isNone = decide (l.toNat = 0) := by
  rw [← Option.isNone_map (f := BitVec.toNat), presentLength_map_toNat]
  split <;> simp_all

theorem le16_toNat_le (buf : Buffer) : (le16 buf).toNat ≤ 65535 := by
  have h0 := (byteAt buf 0).isLt
  have h1 := (byteAt buf 1).isLt
  rw [le16_toNat]
  omega

/-- A present length is never 0, and keeps whatever bound the decoded number has (R117). -/
theorem presentLength_range {l l' : BitVec 31} {bound : Nat} (h : presentLength l = some l')
    (hl : l.toNat ≤ bound) : 1 ≤ l'.toNat ∧ l'.toNat ≤ bound := by
  obtain ⟨rfl, hnonzero⟩ := presentLength_eq_some.1 h
  have : l.toNat ≠ 0 := fun hzero => hnonzero (BitVec.eq_of_toNat_eq hzero)
  omega

/-! ### The forms -/

/-- Settles O11: the outputs of the 16-bit form are `le16` of A and no key. -/
theorem hdr2L16ReadsLittleEndianLength : Obligations.Hdr2L16ReadsLittleEndianLength := by
  intro s a0 a1 ha
  have hlen : (le16 s.a).toNat = a0.toNat + 256 * a1.toNat := by rw [le16_toNat, ha]; rfl
  refine ⟨_, whenSelected_of_admits (by rw [ha]; rfl), ?_, rfl, ?_, rfl, State.returnExtended_keeps _ _ s⟩
  · rw [State.returnExtended_extLen, presentLength_map_toNat, hlen]
  · simp [State.returnExtended_status, presentLength_isNone, hlen]

/-- Settles O12: the outputs of the key form are no length and the key at offset 0. -/
theorem hdr2KReturnsTheFourBytes : Obligations.Hdr2KReturnsTheFourBytes := by
  intro s k0 k1 k2 k3 ha
  refine ⟨_, whenSelected_of_admits (by rw [ha]; rfl), rfl, ?_, rfl, rfl, State.returnExtended_keeps _ _ s⟩
  rw [State.returnExtended_key, ha]
  rfl

/-- Settles O13: the outputs are `le16` of A and the key at offset 2, so the status is 00 at length 0 too. -/
theorem hdr2L16KReadsLengthAndKey : Obligations.Hdr2L16KReadsLengthAndKey := by
  intro s a0 a1 k0 k1 k2 k3 ha
  refine ⟨_, whenSelected_of_admits (by rw [ha]; rfl), ?_, ?_, ?_, rfl, State.returnExtended_keeps _ _ s⟩
  · rw [State.returnExtended_extLen, presentLength_map_toNat, le16_toNat, ha]
    rfl
  · rw [State.returnExtended_key, ha]
    rfl
  · simp [State.returnExtended_status]

/-- Settles O14: the outputs of the long form are `long31` of A and no key. -/
theorem hdr2L31ReadsThirtyOneBits : Obligations.Hdr2L31ReadsThirtyOneBits := by
  intro s a0 a1 a2 a3 a4 a5 a6 a7 ha
  refine ⟨_, whenSelected_of_admits (by rw [ha]; rfl), ?_, rfl, ?_, rfl, State.returnExtended_keeps _ _ s⟩
  · rw [State.returnExtended_extLen, presentLength_map_toNat, long31_toNat, ha]
    rfl
  · simp [State.returnExtended_status]

/-- Settles O15: the outputs are `long31` of A and the key at offset 8, so the status is 00 at length 0 too. -/
theorem hdr2L31KReadsLengthAndKey : Obligations.Hdr2L31KReadsLengthAndKey := by
  intro s a0 a1 a2 a3 a4 a5 a6 a7 k0 k1 k2 k3 ha
  refine ⟨_, whenSelected_of_admits (by rw [ha]; rfl), ?_, ?_, ?_, rfl, State.returnExtended_keeps _ _ s⟩
  · rw [State.returnExtended_extLen, presentLength_map_toNat, long31_toNat, ha]
    rfl
  · rw [State.returnExtended_key, ha]
    rfl
  · simp [State.returnExtended_status]

/-- Settles O16: HDR2.BAD runs on the lengths no other form admits, and has one end. -/
theorem hdr2BadIsAbsent : Obligations.Hdr2BadIsAbsent := fun s h2 h4 h6 h8 h12 =>
  ⟨_, exec_hdr2Bad_reject (by simp [h2, h4, h6, h8, h12]), State.rejectExtended_extLen s, State.rejectExtended_key s,
    State.rejectExtended_status s, State.rejectExtended_seed s, State.rejectExtended_keeps s⟩

/-! ### The range of the length output -/

theorem extLen_of_whenSelected {i : Instr} {s t : State} {l : Option (BitVec 31)} {k : Option MaskKey}
    (h : whenSelected i s (s.returnExtended l k) = .next t) : t.extLen = l := by
  obtain ⟨-, rfl⟩ := whenSelected_next.1 h
  rfl

/-- Settles O18: each form's length output is `presentLength` of a 16-bit or 31-bit number, and `exec_hdr2_cases` for
the whole operation. -/
theorem extendedLengthRange : Obligations.ExtendedLengthRange := by
  refine fun s t l => ⟨fun h hl => ?_, fun h hl => ?_, fun h => ?_⟩
  · have hout : t.extLen = presentLength (le16 s.a) := h.elim extLen_of_whenSelected extLen_of_whenSelected
    exact presentLength_range (hout.symm.trans hl) (le16_toNat_le s.a)
  · have hout : t.extLen = presentLength (long31 s.a) := h.elim extLen_of_whenSelected extLen_of_whenSelected
    exact presentLength_range (hout.symm.trans hl) (Nat.le_of_lt_succ (long31 s.a).isLt)
  · rcases exec_hdr2_cases s with ⟨_, _, he, hnonzero, -⟩ | ⟨he, -⟩
    · cases he.symm.trans h
      exact hnonzero
    · cases he.symm.trans h
      exact nofun

end Sys2Proof.Machine
end

section
/-! PROOFS. HDR2 on the extension of a frame of class L: the two byte orders, and the key two bytes late (R70, R115,
R116, R176 (c)). -/

namespace Sys2Proof.Machine

/-! ### The caller's two transactions -/

/-- ENCODE_FRAME returns the frame of its three operands (R175). -/
theorem encodeFrame_next (payload : Buffer) (b0 : Byte) (m : Bool) (s : State) :
    ∃ t, encodeFrame payload b0 m s = .next t ∧
      t.o = [b0, encodeByte1 m (lenCode payload.length)] ++ lenField payload.length ++
        keyAndPayload m s.seed payload ∧
      t.seed = seedAfter m s.seed ∧ t.pending = s.pending := by
  have hrow : decodeOperation (buildWord true true true m) = .ok (.build true true true m) :=
    decodeOperation_encode (i := .build true true true m) rfl
  have he := (transact_eq (c := .build (some payload) (some b0) (some m)) s hrow).trans (exec_build_present _ m)
  obtain ⟨-, -, hpending, -⟩ := State.returnFrame_keeps config m (lenCode payload.length) (lenField payload.length)
    (s.takeCommand (.build (some payload) (some b0) (some m)) s.pending)
  exact ⟨_, he, State.returnFrame_o m _ _ _, State.returnFrame_seed m _ _ _, hpending⟩

@[simp] theorem Command.hdr2_a (a : Buffer) : (Command.hdr2 a).a = a := rfl

/-- A transaction of HDR2 is exec of HDR2 on the extension. -/
theorem transact_hdr2 (a : Buffer) (s : State) :
    transact (Command.hdr2 a) s = exec .hdr2 (s.takeCommand (Command.hdr2 a) s.pending) :=
  transact_eq s (decodeOperation_encode (i := .hdr2) rfl)

/-! ### The extension of a class L frame -/

/-- On the two extension sizes of code 127 HDR2 reads the long length, and on the longer one the key at offset 8. -/
theorem exec_hdr2_long {s : State} {m : Bool} (h : s.a.length = dispatchSize 127#7 m) :
    exec .hdr2 s =
      .next (s.returnExtended (presentLength (long31 s.a)) (if m then some (keyAt s.a 8) else none)) := by
  cases m <;> simp [exec, execHdr2, h, dispatchSize]

/-- The long length field, byte by byte (R70). -/
theorem longField_eq (n : Nat) :
    longField n = [lowByte (n % 2 ^ 31 / 2 ^ 24), lowByte (n % 2 ^ 31 / 2 ^ 16), lowByte (n % 2 ^ 31 / 2 ^ 8),
      lowByte (n % 2 ^ 31), 0#8, 0#8] := rfl

/-- The long length field begins with the low 31 bits in big-endian order, and HDR2 reads them in little-endian
order and drops bit 7 of the last (D5, D6). -/
theorem long31_longField_append (n : Nat) (rest : Buffer) :
    (long31 (longField n ++ rest)).toNat =
      n % 2 ^ 31 / 2 ^ 24 + 2 ^ 8 * (n / 2 ^ 16 % 256) + 2 ^ 16 * (n / 2 ^ 8 % 256) + 2 ^ 24 * (n % 128) := by
  rw [long31_toNat, longField_eq]
  simp only [byteAt, List.cons_append, List.getD_cons_zero, List.getD_cons_succ, lowByte, BitVec.toNat_ofNat]
  omega

/-- Offset 8 of a masked frame's extension is two bytes into the key field, which starts at offset 6. -/
theorem keyAt_longField_append (n : Nat) (k p : Buffer) (hk : k.length = 4) (hp : 2 ≤ p.length) :
    keyBytes (keyAt (longField n ++ (k ++ p.take 2)) 8) = k.drop 2 ++ p.take 2 := by
  match k, hk, p, hp with
  | [_, _, _, _], _, _ :: _ :: _, _ => rfl

/-- The 8 or 12 bytes behind a class L frame's first two: the length field, the key if there is one, and the first
two bytes of the payload as it is sent. -/
theorem memRead_longFrame (x y : Byte) (n : Nat) (m : Bool) (seed : Seed) (a : Buffer) :
    memRead ([x, y] ++ longField n ++ keyAndPayload m seed a) 2 (dispatchSize 127#7 m) =
      longField n ++ if m then keyAfter seed ++ (maskedBy (keyAfter seed) a).take 2 else a.take 2 := by
  cases m <;> rfl

/-- Settles O42: the extension is the long length field and what `memRead_longFrame` says follows it. -/
theorem longFramesDecodeToReversedLength : Obligations.LongFramesDecodeToReversedLength := by
  intro s payload b0 m hlong
  obtain ⟨t, ht, ho, -⟩ := encodeFrame_next payload b0 m s
  rw [lenField_eq, if_neg (by omega), if_neg (by omega)] at ho
  have hext := memRead_longFrame b0 (encodeByte1 m (lenCode payload.length)) payload.length m s.seed payload
  rw [← ho] at hext
  have hsize : (memRead t.o 2 (dispatchSize 127#7 m)).length = dispatchSize 127#7 m := by
    rw [hext]
    cases m <;> simp [longField_length, dispatchSize, keyAfter] <;> omega
  refine ⟨t, _, ht, (transact_hdr2 _ t).trans (exec_hdr2_long hsize), ?_, ?_⟩
  · rw [State.returnExtended_extLen, resolvedLength_presentLength, State.takeCommand_a, Command.hdr2_a, hext,
      long31_longField_append]
  · rw [State.returnExtended_key, State.takeCommand_a, Command.hdr2_a, hext]
    cases m with
    | false => rfl
    | true => exact congrArg some (keyAt_longField_append _ _ _ rfl (by simp; omega))

end Sys2Proof.Machine
end

section
/-! PROOFS. The agreement of the standing result with its command is kept by every step: one lemma for each of the four
operations, on a state that has just taken the command (R25, R30, R31, R117, R131, R148). -/

namespace Sys2Proof.Machine

/-! ### The present bits and the mask flag in BUILD's word -/

@[simp] theorem cmdPMk_buildWord (k b p m : Bool) : cmdPMk (buildWord k b p m) = k := by revert k b p m; decide
@[simp] theorem cmdPB0_buildWord (k b p m : Bool) : cmdPB0 (buildWord k b p m) = b := by revert k b p m; decide
@[simp] theorem cmdPPl_buildWord (k b p m : Bool) : cmdPPl (buildWord k b p m) = p := by revert k b p m; decide
@[simp] theorem cmdMk_buildWord (k b p m : Bool) : cmdMk (buildWord k b p m) = m := by revert k b p m; decide
@[simp] theorem cmdOp_buildWord (k b p m : Bool) : cmdOp (buildWord k b p m) = 0b11#2 := by revert k b p m; decide

/-- A frame has the length of R148. -/
theorem State.returnFrame_o_length (m : Bool) (s : State) :
    (s.returnFrame config m (lenCode s.a.length) (lenField s.a.length)).o.length = frameLength m s.a.length := by
  rw [State.returnFrame_o, List.length_append, List.length_append, lenField_length, keyAndPayload_length, frameLength,
    ← Nat.add_assoc]
  rfl

/-! ### Each operation leaves the record its rules give -/

/-- The command that a transaction has taken: its word is the operation row's, and its buffers are in the registers. -/
structure State.HasTaken (s : State) (c : Command) (j : Instr) : Prop where
  word : c.cmd = encode j
  a : c.a = s.a
  k : c.k = s.k

section

variable {s t : State} {c : Command}

theorem exec_hdr1_agreesWith (hc : s.HasTaken c .hdr1) (h : exec .hdr1 s = .next t) : t.agreesWith c := by
  rw [State.agreesWith, hc.word, hc.a, if_pos (by decide)]
  by_cases ha : s.a.length = 2
  · obtain ⟨x, y, hxy⟩ := List.length_eq_two.1 ha
    rw [exec_hdr1_pair hxy] at h
    cases h
    simp [ha]
  · rw [exec_hdr1_reject ha] at h
    cases h
    simp [ha]

theorem exec_hdr2_agreesWith (hc : s.HasTaken c .hdr2) (h : exec .hdr2 s = .next t) : t.agreesWith c := by
  rw [State.agreesWith, hc.word, hc.a, if_neg (by decide), if_pos (by decide)]
  rcases exec_hdr2_cases s with ⟨l, k, he, hnonzero, hadmitted, hlen, hkey⟩ | ⟨he, hrejected⟩
  · rw [he] at h
    cases h
    exact ⟨State.returnExtended_status l k s, hnonzero, hlen, hkey, fun hn => absurd hadmitted hn⟩
  · rw [he] at h
    cases h
    simp only [List.mem_cons, List.not_mem_nil, or_false, not_or] at hrejected
    simp [hrejected]

theorem exec_xmask_agreesWith (hc : s.HasTaken c .xmask) (h : exec .xmask s = .next t) : t.agreesWith c := by
  rw [State.agreesWith, hc.word, hc.a, hc.k, if_neg (by decide), if_neg (by decide), if_pos (by decide)]
  by_cases hx : s.k.length ≠ 4 ∨ s.a = []
  · rw [exec_xmask_reject hx] at h
    cases h
    simpa [imp_iff_not_or] using hx
  · obtain ⟨hk, ha⟩ : s.k.length = 4 ∧ s.a ≠ [] := by simpa using hx
    obtain ⟨key, hkey⟩ := exists_keyBytes hk
    rw [exec_xmask_some hkey ha] at h
    cases h
    simp [hk, ha]

theorem exec_build_agreesWith {k b p m : Bool} (hc : s.HasTaken c (.build k b p m))
    (h : exec (.build k b p m) s = .next t) : t.agreesWith c := by
  have hword : c.cmd = buildWord k b p m := hc.word
  simp only [State.agreesWith, hword, hc.a, cmdOp_buildWord, cmdPPl_buildWord, cmdPB0_buildWord, cmdPMk_buildWord,
    cmdMk_buildWord]
  match k, b, p with
  | true, true, true =>
    rw [exec_build_present] at h
    cases h
    simp [State.returnFrame_o_length]
  | false, _, _ | true, false, _ | true, true, false =>
    rw [exec_build_missing m rfl] at h
    cases h
    simp

/-- Whatever operation the command's word spells, its result agrees with the command. -/
theorem exec_operation_agreesWith {j : Instr} (hj : j.kind = .operation) (hc : s.HasTaken c j)
    (h : exec j s = .next t) : t.agreesWith c := by
  cases j with
  | hdr1 => exact exec_hdr1_agreesWith hc h
  | hdr2 => exact exec_hdr2_agreesWith hc h
  | xmask => exact exec_xmask_agreesWith hc h
  | build => exact exec_build_agreesWith hc h
  | _ => cases hj

/-- A step that runs a command leaves a result that agrees with it. -/
theorem exec_takeCommand_agreesWith {rest : List Request} {i : Instr} (hd : decode c.cmd c.a.length = .ok i)
    (h : exec i (s.takeCommand c rest) = .next t) : t.agreesWith c := by
  obtain ⟨j, hj, he⟩ := exec_decoded (s := s.takeCommand c rest) hd
  obtain ⟨hword, hkind⟩ := decodeOperation_ok hj
  exact exec_operation_agreesWith hkind ⟨hword.symm, rfl, rfl⟩ (he ▸ h)

end

/-- Settles O43, by what the step did: after an idle step or a reset no result stands, and the one that a command
leaves agrees with it by `exec_takeCommand_agreesWith`. -/
theorem stepKeepsRecordAgreement : Obligations.StepKeepsRecordAgreement := by
  intro s t _ h
  rcases step_next h with ⟨-, rfl⟩ | ⟨rest, -, rfl⟩ | ⟨c, rest, i, -, hd, he⟩
  · exact State.recordAgrees_of_served_none rfl
  · exact State.recordAgrees_of_served_none rfl
  · obtain ⟨-, -, hserved⟩ := exec_keeps he
    intro c' hc'
    obtain rfl : c = c' := Option.some.inj (hserved.symm.trans hc')
    exact ⟨Command.legal_iff.2 ⟨i, hd⟩, exec_takeCommand_agreesWith hd he⟩

end Sys2Proof.Machine
end

section
/-! PROOFS. PayloadMasker: what XMASK answers on every key and payload, and the ways to mask a payload that give the
same bytes: twice, with a key of one byte value, chunk by chunk, in two pieces (R131 to R137, R209). -/

namespace Sys2Proof.Machine

/-! ### What XMASK answers -/

/-- XMASK on operands it accepts: the output is R131's rule on the two buffers as they stand in A and K. -/
theorem exec_xmask_masks {s : State} (hk : s.k.length = 4) (ha : s.a ≠ []) :
    ∃ t, exec .xmask s = .next t ∧ t.o = maskedBy s.k s.a ∧ t.payValid = true ∧ t.status = 0b00#2 ∧
      t.seed = s.seed ∧ s.keepsOperands { t with a := s.a } ∧ t.a = (if config.xmaskInPlace then t.o else s.a) := by
  obtain ⟨key, hkey⟩ := exists_keyBytes hk
  refine ⟨_, exec_xmask_some hkey ha, ?_, rfl, State.returnMasked_status config key s,
    State.returnMasked_seed config key s, ⟨rfl, rfl, rfl, rfl⟩, State.returnMasked_a config key s⟩
  rw [State.returnMasked_o, hkey]

/-- Settles O19: 0x02 is XMASK's word, `exec_xmask_masks` with `maskedBy_getD` for each byte, and the one rejection. -/
theorem xmaskAppliesTheRollingKey : Obligations.XmaskAppliesTheRollingKey := by
  refine ⟨decode_encode_operation (j := .xmask) rfl, fun s hk ha => ?_, fun s hx => ?_⟩
  · obtain ⟨t, ht, ho, hrest⟩ := exec_xmask_masks hk ha
    refine ⟨t, ht, ?_, fun i hi => ?_, hrest⟩
    · rw [ho, maskedBy_length]
    · rw [ho, maskedBy_getD _ _ i hi]
  · exact ⟨_, exec_xmask_reject hx, State.rejectMask_payValid s, State.rejectMask_status s, State.rejectMask_o s,
      State.rejectMask_seed s, State.rejectMask_keeps s⟩

/-! ### Masking twice -/

/-- Settles O20: the output is a payload of the same length, so XMASK accepts it, and `maskedBy_maskedBy`. -/
theorem xmaskIsItsOwnInverse : Obligations.XmaskIsItsOwnInverse := by
  intro s hk ha
  obtain ⟨t, ht, hto, -⟩ := exec_xmask_masks hk (List.length_pos_iff.1 ha)
  have hnonempty : t.o ≠ [] := by rwa [← List.length_pos_iff, hto, maskedBy_length]
  obtain ⟨u, hu, huo, -⟩ := exec_xmask_masks (s := { s with a := t.o }) hk hnonempty
  refine ⟨t, u, ht, hu, ?_⟩
  calc u.o
    _ = maskedBy s.k (maskedBy s.k s.a) := by rw [huo, hto]
    _ = s.a := maskedBy_maskedBy s.k s.a

/-! ### Keys of one byte value -/

/-- With four equal key bytes the position does not matter: every byte is XORed with that one value. -/
theorem maskedBy_replicate (x : Byte) (a : Buffer) : maskedBy (List.replicate 4 x) a = a.map (· ^^^ x) := by
  have hkey (i : Nat) : (List.replicate 4 x).getD (i % 4) 0#8 = x :=
    List.getD_replicate _ (Nat.mod_lt i (by decide))
  simp only [maskedBy, hkey]
  exact List.ext_getElem (by simp) fun i _ _ => by simp

/-- Settles O21: XOR with 00 is the identity and XOR with FF the complement, by `maskedBy_replicate`; a key of another
length has the one rejection. -/
theorem xmaskKeyCornerCases : Obligations.XmaskKeyCornerCases := by
  refine ⟨fun s hk ha => ?_, fun s hk ha => ?_, fun s hk => ?_⟩
  · obtain ⟨t, ht, ho, hvalid, -⟩ := exec_xmask_masks (by rw [hk]; rfl) ha
    refine ⟨t, ht, ?_, hvalid⟩
    calc t.o
      _ = maskedBy (List.replicate 4 0x00#8) s.a := by rw [ho, hk]; rfl
      _ = s.a := by simp only [maskedBy_replicate, BitVec.xor_zero, List.map_id']
  · obtain ⟨t, ht, ho, hvalid, -⟩ := exec_xmask_masks (by rw [hk]; rfl) ha
    refine ⟨t, ht, ?_, hvalid⟩
    calc t.o
      _ = maskedBy (List.replicate 4 (BitVec.allOnes 8)) s.a := by rw [ho, hk]; rfl
      _ = s.a.map (~~~·) := by simp only [maskedBy_replicate, BitVec.xor_allOnes]
  · exact ⟨_, exec_xmask_reject (.inl hk), State.rejectMask_payValid s, State.rejectMask_status s⟩

/-! ### Chunk by chunk -/

/-- The wide masker is the byte loop: each full chunk ends back at key byte 0, because its width is a multiple of 4
(R137). -/
theorem wideMask_eq_maskFrom {w : Nat} (hw : w % 4 = 0) (key : MaskKey) {q : Nat} {buf : Buffer}
    (h : q * w ≤ buf.length) : wideMask w key q buf = maskFrom 0#2 key buf := by
  induction q generalizing buf with
  | zero => rfl
  | succ q ih =>
    rw [Nat.succ_mul] at h
    have htake : (buf.take w).length = w := List.length_take_of_le (by omega)
    have hdrop : q * w ≤ (buf.drop w).length := by rw [List.length_drop]; omega
    calc wideMask w key (q + 1) buf
      _ = maskFrom 0#2 key (buf.take w) ++ maskFrom 0#2 key (buf.drop w) := by rw [wideMask, maskChunk_eq, ih hdrop]
      _ = maskFrom 0#2 key buf := by rw [← maskFrom_append key _ _ (by rw [htake, hw]), List.take_append_drop]

/-- Settles O22: `a_len / w` full chunks fit into the payload, so `wideMask_eq_maskFrom`. -/
theorem wideMaskEqualsXmask : Obligations.WideMaskEqualsXmask := by
  intro s w key _ hw hk ha
  refine ⟨_, exec_xmask_some hk ha, ?_⟩
  rw [State.returnMasked_o, wideMask_eq_maskFrom hw key (Nat.div_mul_le_self _ _), maskFrom_zero]

/-! ### In two pieces -/

/-- The 4 key bytes from index `n` on, modulo 4: the key for a piece that starts at offset `n` (R209). -/
def rotatedKey (k : Buffer) (n : Nat) : Buffer :=
  [k.getD (n % 4) 0#8, k.getD ((n + 1) % 4) 0#8, k.getD ((n + 2) % 4) 0#8, k.getD ((n + 3) % 4) 0#8]

/-- Byte `i` of the rotated key is byte `n + i` of the key, both modulo 4. -/
theorem rotatedKey_getD (k : Buffer) (n i : Nat) :
    (rotatedKey k n).getD (i % 4) 0#8 = k.getD ((n + i) % 4) 0#8 := by
  have hr : i % 4 < 4 := Nat.mod_lt i (by decide)
  rw [← Nat.add_mod_mod n i]
  generalize i % 4 = r at hr ⊢
  match r, hr with
  | 0, _ | 1, _ | 2, _ | 3, _ => rfl

/-- The second piece of a payload goes on with the rolling key where the first ended (R132, R209). -/
theorem maskedBy_append_rotatedKey (k a1 a2 : Buffer) :
    maskedBy k (a1 ++ a2) = maskedBy k a1 ++ maskedBy (rotatedKey k a1.length) a2 := by
  rw [maskedBy_append]
  simp only [maskedBy, rotatedKey_getD]

/-- Settles O23: XMASK accepts all three pairs of operands, and `maskedBy_append_rotatedKey`. -/
theorem splitPayloadWithRotatedKey : Obligations.SplitPayloadWithRotatedKey := by
  intro s k a1 a2 hk h1 h2
  obtain ⟨t, ht, ho, -⟩ := exec_xmask_masks (s := { s with k := k, a := a1 ++ a2 }) hk
    (List.append_ne_nil_of_left_ne_nil h1 a2)
  obtain ⟨t1, ht1, ho1, -⟩ := exec_xmask_masks (s := { s with k := k, a := a1 }) hk h1
  obtain ⟨t2, ht2, ho2, -⟩ := exec_xmask_masks (s := { s with k := rotatedKey k a1.length, a := a2 }) rfl h2
  refine ⟨t, t1, t2, ht, ht1, ht2, ?_⟩
  rw [ho, ho1, ho2]
  exact maskedBy_append_rotatedKey k a1 a2

end Sys2Proof.Machine
end

section
/-! PROOFS. The mask-key generator: the seed update as a number, and its inverse (R150, R156). -/

namespace Sys2Proof.Machine

/-- Settles O33: the product of two 32-bit words is the product of their numbers modulo 2^32. -/
theorem seedUpdateIsXorTimesThirtyOne : Obligations.SeedUpdateIsXorTimesThirtyOne :=
  fun c seed => BitVec.toNat_mul (seed ^^^ c) 31#32

/-- 31 is odd, so it has an inverse modulo 2^32, and multiplying by it loses nothing. -/
theorem mul_thirtyOne_bijective : Function.Bijective (fun v : Seed => v * 31#32) := by
  refine Function.bijective_iff_has_inverse.2 ⟨fun v => v * 3186588639#32, fun v => ?_, fun v => ?_⟩
  · exact (BitVec.mul_assoc v 31#32 3186588639#32).trans (BitVec.mul_one v)
  · exact (BitVec.mul_assoc v 3186588639#32 31#32).trans (BitVec.mul_one v)

/-- Settles O34: the update is the XOR and then the product, each a bijection. -/
theorem seedUpdateIsBijective : Obligations.SeedUpdateIsBijective :=
  fun c => mul_thirtyOne_bijective.comp (xor_left_involutive c).bijective

end Sys2Proof.Machine
end

section
/-! PROOFS. FrameBuilder: the bytes of a frame in each length class and through the whole operation, its length, and
the result for a missing argument (R141 to R145, R148, R153). -/

namespace Sys2Proof.Machine

/-! ### The bytes in front of the key and the payload -/

/-- Byte 1 is the number mk * 128 plus the code (R68). -/
theorem encodeByte1_eq_ofNat (m : Bool) (l : BitVec 7) :
    encodeByte1 m l = BitVec.ofNat 8 ((if m then 128 else 0) + l.toNat) := by
  rw [← encodeByte1_toNat, BitVec.ofNat_toNat, BitVec.setWidth_eq]

/-- Byte 1 is the OR of the mask bit and the code (step 3 of R141). -/
theorem encodeByte1_eq_or (m : Bool) (l : BitVec 7) :
    encodeByte1 m l = (if m then 0x80#8 else 0x00#8) ||| BitVec.ofNat 8 l.toNat := by
  revert m l; decide

/-- The low byte of a number depends on it modulo 256 alone. -/
theorem ofNat_mod_256 (v : Nat) : BitVec.ofNat 8 (v % 256) = lowByte v :=
  BitVec.eq_of_toNat_eq (by simp [lowByte])

/-! ### What BUILD leaves beside the output -/

/-- A frame leaves SEED updated if it is masked, status 00, `err_args` 0, and the operands as they were. -/
theorem State.returnFrame_frame (m : Bool) (code : BitVec 7) (field : Buffer) (s : State) :
    (s.returnFrame config m code field).seed = seedAfter m s.seed ∧
      (s.returnFrame config m code field).status = 0b00#2 ∧
      (s.returnFrame config m code field).errArgs = false ∧
      s.keepsOperands (s.returnFrame config m code field) :=
  ⟨State.returnFrame_seed m code field s, State.returnFrame_status config m code field s,
    State.returnFrame_errArgs config m code field s, State.returnFrame_keeps config m code field s⟩

/-- A BUILD without one of its arguments reports the error, emits nothing and changes nothing. -/
theorem State.rejectArguments_frame (s : State) :
    s.rejectArguments.errArgs = true ∧ s.rejectArguments.status = 0b10#2 ∧ s.rejectArguments.o = [] ∧
      s.rejectArguments.seed = s.seed ∧ s.keepsOperands s.rejectArguments :=
  ⟨State.rejectArguments_errArgs s, State.rejectArguments_status s, State.rejectArguments_o s,
    State.rejectArguments_seed s, State.rejectArguments_keeps s⟩

/-! ### The three length classes -/

/-- Settles O24: up to 125 the code is the length itself, and the field between header and key is empty. -/
theorem buildSEmitsShortFrame : Obligations.BuildSEmitsShortFrame := by
  intro s m hshort
  refine ⟨_, whenSelected_of_admits (decide_eq_true hshort), ?_, State.returnFrame_frame m _ _ s⟩
  have hcode : (BitVec.ofNat 7 s.a.length).toNat = s.a.length :=
    (BitVec.toNat_ofNat _ 7).trans (Nat.mod_eq_of_lt (by omega))
  rw [State.returnFrame_o, encodeByte1_eq_ofNat, hcode, List.append_nil]

/-- Settles O25: the code is 126, and the field is `be16` of the length. -/
theorem buildMEmitsBigEndianLength : Obligations.BuildMEmitsBigEndianLength := by
  intro s m hlow hhigh
  refine ⟨_, whenSelected_of_admits (by simp [Instr.admits, hlow, hhigh]), ?_, State.returnFrame_frame m _ _ s⟩
  rw [State.returnFrame_o, encodeByte1_eq_ofNat, ofNat_mod_256]
  rfl

/-- Settles O26: the code is 127, and the field is `longField`, `be32` of the low 31 bits and two zero bytes. -/
theorem buildLEmitsSixByteLength : Obligations.BuildLEmitsSixByteLength := by
  intro s m hlong
  refine ⟨_, whenSelected_of_admits (decide_eq_true hlong), ?_, State.returnFrame_frame m _ _ s⟩
  rw [State.returnFrame_o, encodeByte1_eq_ofNat, longField_eq]
  simp only [ofNat_mod_256]
  rfl

/-- Settles O31: BUILD.S on the empty payload, whose masking is empty. -/
theorem emptyMaskedFrameIsHeaderAndKey : Obligations.EmptyMaskedFrameIsHeaderAndKey := by
  intro s ha
  obtain ⟨t, ht, ho, hseed, -⟩ := buildSEmitsShortFrame s true (by simp [ha])
  have hframe : t.o = [s.b0, 0x80#8] ++ keyAfter s.seed := by
    rw [ho, ha, keyAndPayload, if_pos rfl, maskedBy_nil, List.append_nil]
    rfl
  exact ⟨t, ht, hframe, by rw [hframe]; rfl, hseed⟩

/-! ### The whole operation -/

/-- Settles O28: with all arguments present BUILD is the frame with `lenCode` and `lenField` of the length, and with
one missing it has its one rejection. -/
theorem buildFollowsTheSevenSteps : Obligations.BuildFollowsTheSevenSteps := by
  refine ⟨fun s m => ?_, fun s k b p m hmissing => ?_⟩
  · refine ⟨_, exec_build_present s m, ?_, State.returnFrame_frame m _ _ s⟩
    rw [State.returnFrame_o, encodeByte1_eq_or, lenCode_toNat, lenField_eq]
    rfl
  · have hp : (k && b && p) = false := by simpa [imp_iff_not_or, or_assoc] using hmissing
    exact ⟨_, exec_build_missing m hp, State.rejectArguments_frame s⟩

/-- Settles O30: a frame has `frameLength`, and the rejection is empty. -/
theorem buildOutputLength : Obligations.BuildOutputLength := by
  intro s k b p m
  cases hp : k && b && p
  · exact ⟨_, exec_build_missing m hp, congrArg List.length (State.rejectArguments_o s)⟩
  · obtain ⟨⟨rfl, rfl⟩, rfl⟩ : (k = true ∧ b = true) ∧ p = true := by simpa using hp
    exact ⟨_, exec_build_present s m, State.returnFrame_o_length m s⟩

/-- Settles O27: the three rows have one meaning, `State.rejectArguments`. -/
theorem buildErrChangesNothing : Obligations.BuildErrChangesNothing := by
  rintro s x y z i (rfl | rfl | rfl)
  all_goals exact ⟨_, rfl, State.rejectArguments_frame s⟩

end Sys2Proof.Machine
end

section
/-! PROOFS. SEED counts the masked frames: it moves with each masked BUILD and with nothing else, so the key of a
masked BUILD is fixed by how many came before it (R150, R151, R154). -/

namespace Sys2Proof.Machine

/-! ### The one word that draws a key -/

/-- A command draws a key exactly if its word is 0x3F, a BUILD with all arguments present and mk = 1. -/
theorem drawsKey_eq {i : Instr} (h : i.kind ≠ .wire) : drawsKey i = (encode i == 0x3F#8) := by
  cases i with
  | build k b p m => revert k b p m; decide
  | buildErrMk x y z | buildErrB0 x y z | buildErrPl x y z => revert x y z; decide
  | buildS m | buildM m | buildL m => revert m; decide
  | wireByte0 | wireByte1 => exact absurd rfl h
  | _ => rfl

theorem drawsKey_of_decode {w : Byte} {n : Nat} {i : Instr} (h : decode w n = .ok i) :
    drawsKey i = (w == 0x3F#8) := by
  obtain ⟨rfl, -⟩ := decode_eq_ok_iff.1 h
  exact drawsKey_eq (kind_of_decode h)

/-! ### One step -/

/-- A legal command that is next is served, and SEED is updated exactly if its word is 0x3F (R154). -/
theorem step_legal_command {s : State} {c : Command} {rest : List Request} (hp : s.pending = .command c :: rest)
    (hc : c.legal = true) :
    ∃ t, step s = .next t ∧ t.pending = rest ∧ t.seed = seedAfter (c.cmd == 0x3F#8) s.seed := by
  obtain ⟨i, hi⟩ := Command.legal_iff.1 hc
  obtain ⟨t, ht⟩ := exec_decoded_total (s := s.takeCommand c rest) hi
  obtain ⟨hpending, -⟩ := exec_keeps ht
  refine ⟨t, (step_command hp hi).trans ht, hpending, ?_⟩
  rw [exec_seed ht, drawsKey_of_decode hi]
  rfl

/-- The 4 bytes behind header and length field of a masked frame are the key (R149). -/
theorem maskedFrame_key (x y : Byte) (n : Nat) (seed : Seed) (a : Buffer) :
    (([x, y] ++ lenField n ++ keyAndPayload true seed a).drop (2 + lengthFieldSize n)).take 4 = keyAfter seed := by
  have hfront : ([x, y] ++ lenField n).length = 2 + lengthFieldSize n := by
    rw [List.length_append, lenField_length]
    rfl
  rw [← hfront, List.drop_left]
  rfl

/-- A masked BUILD that is next updates SEED and emits the key of the updated seed (R150, R151). -/
theorem step_masked_build {s : State} {c : Command} {rest : List Request} (hp : s.pending = .command c :: rest)
    (hc : c.cmd = 0x3F#8) :
    ∃ t, step s = .next t ∧ t.seed = seedAfter true s.seed ∧
      (t.o.drop (2 + lengthFieldSize c.a.length)).take 4 = keyBytes (config.keyOfSeed t.seed) := by
  have hd : decode c.cmd c.a.length = .ok (buildForm true true true true c.a.length) := by
    rw [hc]
    exact decode_buildWord true true true true c.a.length
  have hs := (step_command hp hd).trans (exec_buildForm (s.takeCommand c rest) true true true true)
  refine ⟨_, hs.trans (exec_build_present _ true), State.returnFrame_seed true _ _ _, ?_⟩
  rw [State.returnFrame_o, State.returnFrame_seed]
  exact maskedFrame_key _ _ _ _ _

/-! ### A queue that ends in a masked BUILD -/

/-- One update more is counted if and only if the first command is a masked BUILD. -/
theorem iterate_countP_cons (c : Command) (cs : List Command) (v : Seed) :
    (seedAfter true)^[(c :: cs).countP (fun d => d.cmd == 0x3F#8) + 1] v =
      (seedAfter true)^[cs.countP (fun d => d.cmd == 0x3F#8) + 1] (seedAfter (c.cmd == 0x3F#8) v) := by
  rw [List.countP_cons]
  cases c.cmd == 0x3F#8 <;> rfl

/-- Settles O37, by induction on the commands before the masked BUILD: each moves SEED as `step_legal_command` says,
and the last step is `step_masked_build`. -/
theorem keyDependsOnCountOfMaskedFrames : Obligations.KeyDependsOnCountOfMaskedFrames := by
  intro s cs c hlegal hc hp
  induction cs generalizing s with
  | nil =>
    obtain ⟨t, ht, hseed, hkey⟩ := step_masked_build hp hc
    exact ⟨t, run_succ 0 ht, hseed, hkey⟩
  | cons d cs ih =>
    obtain ⟨hd, hcs⟩ := List.forall_mem_cons.1 hlegal
    obtain ⟨u, hu, hpending, hseed⟩ := step_legal_command hp hd
    obtain ⟨t, ht, htseed, hkey⟩ := ih u hcs hpending
    refine ⟨t, (run_succ _ hu).trans ht, ?_, hkey⟩
    rw [htseed, hseed]
    exact (iterate_countP_cons d cs s.seed).symm

end Sys2Proof.Machine
end

section
/-! PROOFS. HDR2 on the extension of a frame of class M: the length with its two bytes swapped, and the key that BUILD
emitted (R112, R114, R144, R176 (b)). -/

namespace Sys2Proof.Machine

/-- On the two extension sizes of code 126 HDR2 reads the 16-bit length, and on the longer one the key at offset 2. -/
theorem exec_hdr2_medium {s : State} {m : Bool} (h : s.a.length = dispatchSize 126#7 m) :
    exec .hdr2 s =
      .next (s.returnExtended (presentLength (le16 s.a)) (if m then some (keyAt s.a 2) else none)) := by
  cases m <;> simp [exec, execHdr2, h, dispatchSize]

/-- HDR2 reads in little-endian order the two bytes that BUILD wrote in big-endian order (D5). -/
theorem le16_be16_append (n : Nat) (rest : Buffer) (h : n < 65536) :
    (le16 (be16 n ++ rest)).toNat = 256 * (n % 256) + n / 256 := by
  rw [le16_toNat, be16]
  simp only [byteAt, List.cons_append, List.getD_cons_zero, List.getD_cons_succ, lowByte, BitVec.toNat_ofNat]
  omega

/-- The key at offset 2 is the one right behind the 2-byte length field. -/
theorem keyAt_be16_append (n : Nat) (k : Buffer) (hk : k.length = 4) : keyBytes (keyAt (be16 n ++ k) 2) = k := by
  match k, hk with
  | [_, _, _, _], _ => rfl

/-- The 2 or 6 bytes behind a class M frame's first two: the length field, and the key if there is one. -/
theorem memRead_mediumFrame (x y : Byte) (n : Nat) (m : Bool) (seed : Seed) (a : Buffer) :
    memRead ([x, y] ++ be16 n ++ keyAndPayload m seed a) 2 (dispatchSize 126#7 m) =
      be16 n ++ if m then keyAfter seed else [] := by
  cases m <;> rfl

/-- Settles O41: the extension is what `memRead_mediumFrame` says, and the swapped length is not 0. -/
theorem mediumFramesDecodeToSwappedLength : Obligations.MediumFramesDecodeToSwappedLength := by
  intro s payload b0 m hlow hhigh
  obtain ⟨t, ht, ho, -⟩ := encodeFrame_next payload b0 m s
  rw [lenField_eq, if_neg (by omega), if_pos (by omega)] at ho
  have hext := memRead_mediumFrame b0 (encodeByte1 m (lenCode payload.length)) payload.length m s.seed payload
  rw [← ho] at hext
  have hsize : (memRead t.o 2 (dispatchSize 126#7 m)).length = dispatchSize 126#7 m := by
    rw [hext]
    cases m <;> rfl
  refine ⟨t, _, ht, (transact_hdr2 _ t).trans (exec_hdr2_medium hsize), ?_, ?_⟩
  · rw [State.returnExtended_extLen, presentLength_map_toNat, State.takeCommand_a, Command.hdr2_a, hext,
      le16_be16_append _ _ (by omega), if_neg (by omega)]
  · rw [State.returnExtended_key, State.takeCommand_a, Command.hdr2_a, hext]
    cases m with
    | false => rfl
    | true => exact congrArg some (keyAt_be16_append _ _ rfl)

end Sys2Proof.Machine
end

section
/-! PROOFS. The caller's flows: the dispatch table, the payload length, and the way back of a frame of class S through
DECODE_FRAME (R171 to R176). -/

namespace Sys2Proof.Machine

/-! ### The two tables of the decode flow -/

/-- Settles O38: up to 125 the mask flag alone decides, and the other four entries are evaluated. -/
theorem dispatchTable : Obligations.DispatchTable :=
  ⟨fun _ h => ⟨if_pos h, if_pos h⟩, rfl, rfl, rfl, rfl⟩

theorem resolvedLength_of_le {code : BitVec 7} (h : code.toNat ≤ 125) (extLen : Option (BitVec 31)) :
    resolvedLength code extLen = code.toNat := if_pos h

/-- Above 125 the code does not count: the length is the extended one, or 0 without it (R173, D24). -/
theorem resolvedLength_of_gt {code : BitVec 7} (h : 126 ≤ code.toNat) (extLen : Option (BitVec 31)) :
    resolvedLength code extLen = (extLen.map BitVec.toNat).getD 0 := by
  cases extLen <;> exact if_neg (Nat.not_le.2 h)

/-- Settles O39: one lemma for each side of 125. -/
theorem resolvedLengthCases : Obligations.ResolvedLengthCases :=
  ⟨fun _ xl h => resolvedLength_of_le h xl, fun _ l h => resolvedLength_of_gt h (some l),
    fun _ h => resolvedLength_of_gt h none⟩

/-! ### The transactions of the decode flow -/

/-- HDR1 on two bytes returns their header and keeps SEED and the queue. -/
theorem transact_hdr1 (x y : Byte) (s : State) :
    ∃ t, transact (Command.hdr1 [x, y]) s = .next t ∧ t.hdr = some (parseHeader x y) ∧
      t.seed = s.seed ∧ t.pending = s.pending :=
  ⟨_, (transact_eq (c := .hdr1 [x, y]) s (decodeOperation_encode (i := .hdr1) rfl)).trans (exec_hdr1_pair rfl),
    rfl, rfl, rfl⟩

/-- HDR2 on the four bytes of a key returns that key and no length (R113). -/
theorem transact_hdr2_key (key : MaskKey) (s : State) :
    ∃ t, transact (Command.hdr2 (keyBytes key)) s = .next t ∧ t.extLen = none ∧ t.key = some key ∧
      t.seed = s.seed ∧ t.pending = s.pending :=
  ⟨_, transact_hdr2 (keyBytes key) s, rfl, rfl, rfl, rfl⟩

/-- XMASK with a key on a payload that is not empty returns the masked payload (R131). -/
theorem transact_xmask (key : MaskKey) {a : Buffer} (ha : a ≠ []) (s : State) :
    ∃ t, transact (Command.xmask (keyBytes key) a) s = .next t ∧ t.payValid = true ∧
      t.o = maskedBy (keyBytes key) a ∧ t.seed = s.seed ∧ t.pending = s.pending :=
  ⟨_, (transact_eq (c := .xmask (keyBytes key) a) s (decodeOperation_encode (i := .xmask) rfl)).trans
    (exec_xmask_some rfl ha), rfl, State.returnMasked_o config key _, rfl, rfl⟩

/-! ### The end of DECODE_FRAME -/

/-- The bytes behind a front are read at the front's length. -/
theorem memRead_append (front body : Buffer) : memRead (front ++ body) front.length body.length = body := by
  rw [memRead, List.drop_left, List.take_length]

section

variable {front body : Buffer} {h : Header} {n : Nat} {extLen : Option (BitVec 31)}

/-- A body that is not masked, or empty, is delivered as it stands (R171, R174). -/
theorem decodeBody_raw (hfront : front.length = 2 + n)
    (hlen : resolvedLength h.payloadLenCode extLen = body.length) (hraw : h.mask = false ∨ body = [])
    (key : Option MaskKey) (s : State) :
    decodeBody (front ++ body) h n extLen key s =
      .next (.frame h.fin h.opcode body (front ++ body).length, s) := by
  have hmask : (h.mask && decide (0 < body.length)) = false := by
    rcases hraw with hm | rfl
    · rw [hm, Bool.false_and]
    · exact Bool.and_false _
  simp [decodeBody, hlen, ← hfront, hmask, memRead_append]

/-- The body of a masked frame is unmasked by XMASK with the frame's key; an empty one needs no key (R171, R174). -/
theorem decodeBody_masked (hfront : front.length = 2 + n)
    (hlen : resolvedLength h.payloadLenCode extLen = body.length) (hmask : h.mask = true)
    (key : MaskKey) (s : State) :
    ∃ u, decodeBody (front ++ body) h n extLen (some key) s =
        .next (.frame h.fin h.opcode (maskedBy (keyBytes key) body) (front ++ body).length, u) ∧
      u.seed = s.seed ∧ u.pending = s.pending := by
  by_cases hb : body = []
  · refine ⟨s, ?_, rfl, rfl⟩
    rw [decodeBody_raw hfront hlen (.inr hb), hb, maskedBy_nil]
  · obtain ⟨u, hu, hvalid, ho, hkept⟩ := transact_xmask key hb s
    refine ⟨u, ?_, hkept⟩
    simp [decodeBody, hlen, ← hfront, hmask, List.length_pos_iff.2 hb, memRead_append, hu, hvalid, ho, afterward]

end

/-! ### DECODE_FRAME on a code up to 125 -/

section

variable {f : Buffer} {x : Byte} {code : BitVec 7} (hcode : code.toNat ≤ 125)
include hcode

/-- Without the mask flag there is no extension: DECODE_FRAME comes to the body after HDR1. -/
theorem decodeFrame_short_raw (hlen : 2 ≤ f.length) (hhead : memRead f 0 2 = [x, encodeByte1 false code])
    (s : State) :
    ∃ u, decodeFrame f s = decodeBody f ⟨byte0Fin x, byte0Opcode x, code, false⟩ 0 none none u ∧
      u.seed = s.seed ∧ u.pending = s.pending := by
  obtain ⟨u, hu, hhdr, hkept⟩ := transact_hdr1 x (encodeByte1 false code) s
  rw [parseHeader_encodeByte1] at hhdr
  refine ⟨u, ?_, hkept⟩
  simp [decodeFrame, Nat.not_lt.2 hlen, hhead, hu, hhdr, afterward, dispatchSize, hcode]

/-- With the mask flag the extension is the key: DECODE_FRAME comes to the body after HDR2. -/
theorem decodeFrame_short_masked (hlen : 6 ≤ f.length) (hhead : memRead f 0 2 = [x, encodeByte1 true code])
    {key : MaskKey} (hext : memRead f 2 4 = keyBytes key) (s : State) :
    ∃ u, decodeFrame f s = decodeBody f ⟨byte0Fin x, byte0Opcode x, code, true⟩ 4 none (some key) u ∧
      u.seed = s.seed ∧ u.pending = s.pending := by
  obtain ⟨t, ht, hhdr, hseed, hpending⟩ := transact_hdr1 x (encodeByte1 true code) s
  rw [parseHeader_encodeByte1] at hhdr
  obtain ⟨u, hu, hextLen, hkey, huseed, hupending⟩ := transact_hdr2_key key t
  refine ⟨u, ?_, huseed.trans hseed, hupending.trans hpending⟩
  have hheader : ¬ f.length < 2 := by omega
  simp [decodeFrame, hheader, Nat.not_lt.2 hlen, hhead, ht, hhdr, afterward, dispatchSize, hcode, hext, hu, hextLen,
    hkey]

end

/-! ### ENCODE_FRAME and back -/

section

variable {code : BitVec 7} {payload : Buffer} (hshort : payload.length ≤ 125) (hcode : code.toNat = payload.length)
include hshort hcode

/-- A raw frame is read back: HDR1, and the body as it stands. -/
theorem decodeFrame_rawFrame (x : Byte) (s : State) :
    ∃ u, decodeFrame ([x, encodeByte1 false code] ++ payload) s =
        .next (.frame (byte0Fin x) (byte0Opcode x) payload ([x, encodeByte1 false code] ++ payload).length, u) ∧
      u.seed = s.seed ∧ u.pending = s.pending := by
  have hle : code.toNat ≤ 125 := hcode.trans_le hshort
  obtain ⟨u, hu, hkept⟩ := decodeFrame_short_raw (f := [x, encodeByte1 false code] ++ payload) hle (by simp) rfl s
  exact ⟨u, hu.trans (decodeBody_raw rfl ((resolvedLength_of_le hle none).trans hcode) (.inl rfl) none u), hkept⟩

/-- A masked frame is read back: HDR1, HDR2 with the key behind the header, and XMASK, which masks the payload the
second time. -/
theorem decodeFrame_maskedFrame (x : Byte) (key : MaskKey) (s : State) :
    ∃ u, decodeFrame ([x, encodeByte1 true code] ++ keyBytes key ++ maskedBy (keyBytes key) payload) s =
        .next (.frame (byte0Fin x) (byte0Opcode x) payload
          ([x, encodeByte1 true code] ++ keyBytes key ++ maskedBy (keyBytes key) payload).length, u) ∧
      u.seed = s.seed ∧ u.pending = s.pending := by
  have hle : code.toNat ≤ 125 := hcode.trans_le hshort
  have hlen : resolvedLength code none = (maskedBy (keyBytes key) payload).length := by
    rw [resolvedLength_of_le hle, hcode, maskedBy_length]
  obtain ⟨t, ht, hseed, hpending⟩ := decodeFrame_short_masked
    (f := [x, encodeByte1 true code] ++ keyBytes key ++ maskedBy (keyBytes key) payload) hle (by simp) rfl rfl s
  obtain ⟨u, hu, huseed, hupending⟩ := decodeBody_masked (front := [x, encodeByte1 true code] ++ keyBytes key)
    (n := 4) (h := ⟨byte0Fin x, byte0Opcode x, code, true⟩) rfl hlen rfl key t
  refine ⟨u, ?_, huseed.trans hseed, hupending.trans hpending⟩
  rw [ht, hu, maskedBy_maskedBy]

end

/-- Settles O40: a frame of class S has no length field and its code is its length, so it is the frame that
`decodeFrame_rawFrame` or `decodeFrame_maskedFrame` reads back. -/
theorem shortFramesRoundTrip : Obligations.ShortFramesRoundTrip := by
  intro s payload b0 m hshort
  obtain ⟨t, ht, ho, hseed, hpending⟩ := encodeFrame_next payload b0 m s
  rw [lenField_eq, if_pos hshort, List.append_nil] at ho
  have hcode : (lenCode payload.length).toNat = payload.length := by rw [lenCode_toNat, if_pos hshort]
  have hback : ∃ u, decodeFrame t.o t = .next (.frame (byte0Fin b0) (byte0Opcode b0) payload t.o.length, u) ∧
      u.seed = t.seed ∧ u.pending = t.pending := by
    rw [ho]
    cases m with
    | false => exact decodeFrame_rawFrame hshort hcode b0 t
    | true => exact decodeFrame_maskedFrame hshort hcode b0 (config.keyOfSeed (seedAfter true s.seed)) t
  obtain ⟨u, hu, huseed, hupending⟩ := hback
  exact ⟨t, u, ht, hu, hseed, huseed, hupending.trans hpending⟩

end Sys2Proof.Machine
end

section
/-! PROOFS. A failure is precise: only the two ends that can change SEED or an operand buffer are successes
(R181, R182, R189). -/

namespace Sys2Proof.Machine

/-- Settles O45, by the ends of `exec_next`: a header, a masked payload (which may rewrite A) and a frame (which may
advance SEED) have status 00; every other end, HDR2's results among them, keeps SEED and the operands. -/
theorem failuresArePrecise : Obligations.FailuresArePrecise := by
  intro i s t h hfail
  rcases exec_next h with
    ⟨-, ⟨hd, rfl⟩ | rfl⟩ | ⟨-, ⟨l, k, rfl⟩ | rfl⟩ | ⟨-, ⟨key, -, -, rfl⟩ | rfl⟩ | ⟨m, code, field, -, rfl⟩ | ⟨-, rfl⟩
  case inl.inl => exact absurd (State.returnHeader_status hd s) hfail
  case inl.inr => exact ⟨State.rejectHeader_seed s, State.rejectHeader_keeps s⟩
  case inr.inl.inl => exact ⟨State.returnExtended_seed l k s, State.returnExtended_keeps l k s⟩
  case inr.inl.inr => exact ⟨State.rejectExtended_seed s, State.rejectExtended_keeps s⟩
  case inr.inr.inl.inl => exact absurd (State.returnMasked_status config key s) hfail
  case inr.inr.inl.inr => exact ⟨State.rejectMask_seed s, State.rejectMask_keeps s⟩
  case inr.inr.inr.inl => exact absurd (State.returnFrame_status config m code field s) hfail
  case inr.inr.inr.inr => exact ⟨State.rejectArguments_seed s, State.rejectArguments_keeps s⟩

end Sys2Proof.Machine
end

section
/-! PROOFS. Reset, and the progress of a queue of legal requests: each step serves exactly the oldest one (R36, R50,
R52, R200, R216). -/

namespace Sys2Proof.Machine

/-! ### Reset -/

/-- Settles O7: a reset request is `State.takeReset`, which writes SEED_RESET, keeps the rest of the queue and ends
the standing result. -/
theorem resetSetsSeedToSeedReset : Obligations.ResetSetsSeedToSeedReset :=
  ⟨rfl, fun s rest h =>
    ⟨s.takeReset rest, step_reset h, State.takeReset_seed rest s, State.takeReset_pending rest s,
      State.takeReset_served rest s⟩⟩

/-! ### Progress -/

theorem State.servable_iff {s : State} : s.servable = true ↔ ∀ r ∈ s.pending, r.legal = true :=
  List.all_eq_true

/-- A legal request that is next is served, and no other request is taken. -/
theorem step_legal_request {s : State} {r : Request} {rest : List Request} (hp : s.pending = r :: rest)
    (hr : r.legal = true) : ∃ t, step s = .next t ∧ t.pending = rest := by
  cases r with
  | reset => exact ⟨s.takeReset rest, step_reset hp, State.takeReset_pending rest s⟩
  | command c =>
    obtain ⟨t, ht, hpending, -⟩ := step_legal_command hp hr
    exact ⟨t, ht, hpending⟩

/-- As many steps as there are legal requests at the front of the queue serve these and leave what is behind them. -/
theorem run_legal_requests {s : State} {rs rest : List Request} (hp : s.pending = rs ++ rest)
    (hrs : ∀ r ∈ rs, r.legal = true) :
    ∃ t : State, Host.Core.run Sys2Proof.core rs.length s = .next t ∧ t.pending = rest := by
  induction rs generalizing s with
  | nil => exact ⟨s, rfl, hp⟩
  | cons r rs ih =>
    obtain ⟨hr, hrs⟩ := List.forall_mem_cons.1 hrs
    obtain ⟨u, hu, hupending⟩ := step_legal_request hp hr
    obtain ⟨t, ht, htpending⟩ := ih hupending hrs
    exact ⟨t, (run_succ rs.length hu).trans ht, htpending⟩

/-- Settles O47: `run_legal_requests`, where the legal requests at the front are the whole queue. -/
theorem everyLegalRequestIsServed : Obligations.EveryLegalRequestIsServed :=
  fun s h => run_legal_requests (List.append_nil s.pending).symm (State.servable_iff.1 h)

end Sys2Proof.Machine
end
